-- ==== Sys2Proof/Word.lean ====
section
/-! DEFINITION. The bit-vector types the spec's values have (`00_scope.md` R12, R13). -/

namespace Sys2Proof

/-- A `u32`: a command word, a response word, a 32-bit register or counter (R13, R80). -/
abbrev Word := BitVec 32

/-- A `u16`: the FCS, a length, a half-register value (R12, R13). -/
abbrev Half := BitVec 16

/-- A `u8` (R13). -/
abbrev Byte := BitVec 8

/-- A link number as the command word and the descriptor carry it, 8 bits (R34, R81). -/
abbrev LinkNo := BitVec 8

/-- The 4-bit `sel` field read as a slot number (R34, R81). -/
abbrev SlotNo := BitVec 4

/-- The 4-bit `sel` field read as a register selector (R81, R82). -/
abbrev RegSel := BitVec 4

end Sys2Proof
end

