-- ==== Sys2Proof/Machine/Codec.lean ====
section
/-! DEFINITION. The pure functions of the Frame Codec (`40_codec.md`): byte classes, stuffing, the CRC table and
recurrence, the FCS and the good-FCS constant. -/

namespace Sys2Proof.Machine

/-- `FLAG`, the frame delimiter (R110). -/
def flagByte : Byte := 0x7E
/-- `ESC`, the control escape (R110). -/
def escByte : Byte := 0x7D
/-- `XV`, the value an escaped byte is XORed with (R110). -/
def xorValue : Byte := 0x20

/-- A byte is reserved if it is `FLAG` or `ESC` (R111). -/
def isReserved (b : Byte) : Bool := b == flagByte || b == escByte

/-- The byte is below 32 and its bit of the map is set (R40, R41): bit `i` is byte value `i`. -/
def accmMarks (accm : Word) (b : Byte) : Bool := decide (b.toNat < 0x20) && accm.getLsbD b.toNat

/-- `Unescape` (R113). -/
def unescape (b : Byte) : Byte := b ^^^ xorValue

/-- `RxDrop` (R114). -/
def rxDrop (b : Byte) (accm : Word) : Bool := accmMarks accm b

/-- The classes of a received byte (R115). -/
inductive ByteClass where
  | escaped
  | escape
  | frameEnd
  | empty
  | dropped
  | data
  deriving DecidableEq, Repr

/-- `Classify`: the first case of R115's table that holds. -/
def classify (esc : Bool) (cnt : Half) (b : Byte) (accm : Word) : ByteClass :=
  if esc = true then .escaped
  else if b = escByte then .escape
  else if b = flagByte ∧ cnt ≠ 0 then .frameEnd
  else if b = flagByte ∧ cnt = 0 then .empty
  else if rxDrop b accm = true then .dropped
  else .data

/-- `NeedsEsc` (R116). -/
def needsEsc (b : Byte) (accm : Word) : Bool := b == flagByte || b == escByte || accmMarks accm b

/-- `Stuff`, the wire form of one byte (R117). -/
def stuff (b : Byte) (accm : Word) : List Byte :=
  if needsEsc b accm = true then [escByte, b ^^^ xorValue] else [b]

/-- One LSB-first shift step of the table's generator (R121). -/
def crcShift (v : Half) : Half := if v.getLsbD 0 = true then (v >>> 1) ^^^ 0x8408 else v >>> 1

/-- `CRCT[k]` by the generator of R121: eight shift steps from `k`. -/
def crct (k : Byte) : Half :=
  crcShift (crcShift (crcShift (crcShift (crcShift (crcShift (crcShift (crcShift (k.setWidth 16))))))))

/-- `CRC(f, b)`, the one-byte FCS update (R120). -/
def crc (f : Half) (b : Byte) : Half := (f >>> 8) ^^^ crct ((f ^^^ b.setWidth 16).setWidth 8)

/-- `FcsOver`, the left fold of `CRC` (R122). -/
def fcsOver (seed : Half) (c : List Byte) : Half := c.foldl crc seed

/-- The FCS seed (R123, R172). -/
def fcsSeed : Half := 0xFFFF

/-- The residue of a valid frame (R124). -/
def goodFcs : Half := 0xF0B8

/-- `v[7:0]` (R62). -/
def lowByte (v : Half) : Byte := v.extractLsb' 0 8
/-- `v[15:8]` (R62). -/
def highByte (v : Half) : Byte := v.extractLsb' 8 8

/-- The complement of the running FCS, what is transmitted (R123). -/
def fcsComplement (f : Half) : Half := f ^^^ 0xFFFF

/-- The two FCS bytes that close a frame whose running FCS is `f`, low byte first (R62, R123). -/
def fcsBytes (f : Half) : List Byte := [lowByte (fcsComplement f), highByte (fcsComplement f)]

/-- The stuffed form of a byte sequence, byte by byte (R117, R118). -/
def stuffAll (p : List Byte) (accm : Word) : List Byte := p.flatMap (fun b => stuff b accm)

/-- What TXE emits for the running FCS `f`: the stuffed FCS bytes and the closing flag (R174). -/
def frameTail (f : Half) (accm : Word) : List Byte := stuffAll (fcsBytes f) accm ++ [flagByte]

/-- `EncodeFrame` (R118). -/
def encodeFrame (p : List Byte) (accm : Word) : List Byte :=
  [flagByte] ++ stuffAll p accm ++ frameTail (fcsOver fcsSeed p) accm

/-- Rows 0 to 7 of the table R121 prints. -/
def crctPrinted0 : List Half := [
  0x0000, 0x1189, 0x2312, 0x329B, 0x4624, 0x57AD, 0x6536, 0x74BF, 0x8C48, 0x9DC1, 0xAF5A, 0xBED3, 0xCA6C, 0xDBE5, 0xE97E, 0xF8F7,
  0x1081, 0x0108, 0x3393, 0x221A, 0x56A5, 0x472C, 0x75B7, 0x643E, 0x9CC9, 0x8D40, 0xBFDB, 0xAE52, 0xDAED, 0xCB64, 0xF9FF, 0xE876,
  0x2102, 0x308B, 0x0210, 0x1399, 0x6726, 0x76AF, 0x4434, 0x55BD, 0xAD4A, 0xBCC3, 0x8E58, 0x9FD1, 0xEB6E, 0xFAE7, 0xC87C, 0xD9F5,
  0x3183, 0x200A, 0x1291, 0x0318, 0x77A7, 0x662E, 0x54B5, 0x453C, 0xBDCB, 0xAC42, 0x9ED9, 0x8F50, 0xFBEF, 0xEA66, 0xD8FD, 0xC974]

/-- Rows 8 to 15 of the table R121 prints. -/
def crctPrinted1 : List Half := [
  0x4204, 0x538D, 0x6116, 0x709F, 0x0420, 0x15A9, 0x2732, 0x36BB, 0xCE4C, 0xDFC5, 0xED5E, 0xFCD7, 0x8868, 0x99E1, 0xAB7A, 0xBAF3,
  0x5285, 0x430C, 0x7197, 0x601E, 0x14A1, 0x0528, 0x37B3, 0x263A, 0xDECD, 0xCF44, 0xFDDF, 0xEC56, 0x98E9, 0x8960, 0xBBFB, 0xAA72,
  0x6306, 0x728F, 0x4014, 0x519D, 0x2522, 0x34AB, 0x0630, 0x17B9, 0xEF4E, 0xFEC7, 0xCC5C, 0xDDD5, 0xA96A, 0xB8E3, 0x8A78, 0x9BF1,
  0x7387, 0x620E, 0x5095, 0x411C, 0x35A3, 0x242A, 0x16B1, 0x0738, 0xFFCF, 0xEE46, 0xDCDD, 0xCD54, 0xB9EB, 0xA862, 0x9AF9, 0x8B70]

/-- Rows 16 to 23 of the table R121 prints. -/
def crctPrinted2 : List Half := [
  0x8408, 0x9581, 0xA71A, 0xB693, 0xC22C, 0xD3A5, 0xE13E, 0xF0B7, 0x0840, 0x19C9, 0x2B52, 0x3ADB, 0x4E64, 0x5FED, 0x6D76, 0x7CFF,
  0x9489, 0x8500, 0xB79B, 0xA612, 0xD2AD, 0xC324, 0xF1BF, 0xE036, 0x18C1, 0x0948, 0x3BD3, 0x2A5A, 0x5EE5, 0x4F6C, 0x7DF7, 0x6C7E,
  0xA50A, 0xB483, 0x8618, 0x9791, 0xE32E, 0xF2A7, 0xC03C, 0xD1B5, 0x2942, 0x38CB, 0x0A50, 0x1BD9, 0x6F66, 0x7EEF, 0x4C74, 0x5DFD,
  0xB58B, 0xA402, 0x9699, 0x8710, 0xF3AF, 0xE226, 0xD0BD, 0xC134, 0x39C3, 0x284A, 0x1AD1, 0x0B58, 0x7FE7, 0x6E6E, 0x5CF5, 0x4D7C]

/-- Rows 24 to 31 of the table R121 prints. -/
def crctPrinted3 : List Half := [
  0xC60C, 0xD785, 0xE51E, 0xF497, 0x8028, 0x91A1, 0xA33A, 0xB2B3, 0x4A44, 0x5BCD, 0x6956, 0x78DF, 0x0C60, 0x1DE9, 0x2F72, 0x3EFB,
  0xD68D, 0xC704, 0xF59F, 0xE416, 0x90A9, 0x8120, 0xB3BB, 0xA232, 0x5AC5, 0x4B4C, 0x79D7, 0x685E, 0x1CE1, 0x0D68, 0x3FF3, 0x2E7A,
  0xE70E, 0xF687, 0xC41C, 0xD595, 0xA12A, 0xB0A3, 0x8238, 0x93B1, 0x6B46, 0x7ACF, 0x4854, 0x59DD, 0x2D62, 0x3CEB, 0x0E70, 0x1FF9,
  0xF78F, 0xE606, 0xD49D, 0xC514, 0xB1AB, 0xA022, 0x92B9, 0x8330, 0x7BC7, 0x6A4E, 0x58D5, 0x495C, 0x3DE3, 0x2C6A, 0x1EF1, 0x0F78]

/-- The table R121 prints, `CRCT[0..255]`; the generator gives these entries. -/
def crctPrinted : List Half := crctPrinted0 ++ crctPrinted1 ++ crctPrinted2 ++ crctPrinted3

end Sys2Proof.Machine
end

