-- ==== Sys2Proof/Syntax.lean ====
section
/-! DEFINITION. The commands of `30_encoding.md` R83, one constructor per row of `spec/opcode_table.json`.
The operands have the widths of the command word's fields (R81, R82), so every field value is representable. -/

namespace Sys2Proof

/-- A decoded command. -/
inductive Instr where
  /-- `NOP` (R246). -/
  | nop
  /-- `RXB l, b`: receive one byte on a link (R140). -/
  | rxb (l : LinkNo) (b : Byte)
  /-- `TXS l`: start a frame (R172). -/
  | txs (l : LinkNo)
  /-- `TXD l, b`: send one payload byte (R173). -/
  | txd (l : LinkNo) (b : Byte)
  /-- `TXE l`: end a frame (R174). -/
  | txe (l : LinkNo)
  /-- `RXQP`: pop the RX Descriptor Queue (R200). -/
  | rxqp
  /-- `SLRD l, s, i`: read one byte of a held slot (R206). -/
  | slrd (l : LinkNo) (s : SlotNo) (i : Half)
  /-- `FCHK l, s`: check a held frame's size and FCS (R210). -/
  | fchk (l : LinkNo) (s : SlotNo)
  /-- `SLRL l, s`: release a held slot (R215). -/
  | slrl (l : LinkNo) (s : SlotNo)
  /-- `TXQP`: pop the TX Notification Queue (R220). -/
  | txqp
  /-- `CFGL l, r, h`: write bits 15:0 of a link register (R241). -/
  | cfgl (l : LinkNo) (r : RegSel) (h : Half)
  /-- `CFGH l, r, h`: write bits 31:16 of a link register (R242). -/
  | cfgh (l : LinkNo) (r : RegSel) (h : Half)
  /-- `CFGR l, r`: read a link register (R243). -/
  | cfgr (l : LinkNo) (r : RegSel)
  /-- `STRD r`: read a global status value (R244). -/
  | strd (r : RegSel)
  /-- `LINIT l`: reinitialise one quiescent link (R245). -/
  | linit (l : LinkNo)
  deriving DecidableEq, Repr

end Sys2Proof
end

