-- ==== Sys2Proof/WellFormed.lean ====
section
/-! DEFINITION. The static legality of a decoded command: the reserved and read-only selectors of
`30_encoding.md` R85. Every other illegal word is refused by the decoder already (R84), so a command that
is not well formed still decodes, and its meaning faults with IllegalCommand (`44_control.md` R240). -/

namespace Sys2Proof

/-- R85: "CFGL, CFGH or CFGR with `sel` in 7..15" are reserved. -/
def cfgSelExists (r : RegSel) : Bool := r.toNat < 7

/-- R85: "CFGL or CFGH with `sel` in 5..6 (read-only registers)". -/
def cfgSelWritable (r : RegSel) : Bool := r.toNat != 5 && r.toNat != 6

/-- R85: "STRD with `sel` in 6..15" is reserved. -/
def strdSelExists (r : RegSel) : Bool := r.toNat < 6

/-- The selector, where the command has one, is neither reserved nor read-only (R85). -/
def Instr.wf : Instr → Bool
  | .nop => true
  | .rxb _ _ => true
  | .txs _ => true
  | .txd _ _ => true
  | .txe _ => true
  | .rxqp => true
  | .slrd _ _ _ => true
  | .fchk _ _ => true
  | .slrl _ _ => true
  | .txqp => true
  | .cfgl _ r _ => cfgSelExists r && cfgSelWritable r
  | .cfgh _ r _ => cfgSelExists r && cfgSelWritable r
  | .cfgr _ r => cfgSelExists r
  | .strd r => strdSelExists r
  | .linit _ => true

end Sys2Proof
end

