-- ==== Sys2Proof/Decode.lean ====
section
/-! DEFINITION. The decoder of `30_encoding.md` R84, total on every 32-bit word, and the encoder of R87. -/

namespace Sys2Proof

/-- Why a word spells no command; both end in IllegalCommand (R84). -/
inductive DecodeError where
  /-- `op = 0xF`, the only unassigned opcode (R85). -/
  | reservedOpcode
  /-- A must-be-zero field is nonzero (R85). -/
  | mustBeZero
  deriving DecidableEq, Repr

/-- One row of the opcode map of R83: `w` spells the row's command when `(w AND mask) = match`. -/
structure OpcodeRow where
  op : BitVec 4
  mnemonic : String
  pattern : Word
  mask : Word
  deriving DecidableEq, Repr

/-- R83's table, its op, mnemonic, match and mask columns. -/
def opcodeMap : List OpcodeRow :=
  [ ⟨0x0, "NOP",   0x00000000, 0xFFFFFFFF⟩, ⟨0x1, "RXB",  0x10000000, 0xFF00FF00⟩,
    ⟨0x2, "TXS",   0x20000000, 0xFF00FFFF⟩, ⟨0x3, "TXD",  0x30000000, 0xFF00FF00⟩,
    ⟨0x4, "TXE",   0x40000000, 0xFF00FFFF⟩, ⟨0x5, "RXQP", 0x50000000, 0xFFFFFFFF⟩,
    ⟨0x6, "SLRD",  0x60000000, 0xF0000000⟩, ⟨0x7, "FCHK", 0x70000000, 0xF000FFFF⟩,
    ⟨0x8, "SLRL",  0x80000000, 0xF000FFFF⟩, ⟨0x9, "TXQP", 0x90000000, 0xFFFFFFFF⟩,
    ⟨0xA, "CFGL",  0xA0000000, 0xF0000000⟩, ⟨0xB, "CFGH", 0xB0000000, 0xF0000000⟩,
    ⟨0xC, "CFGR",  0xC0000000, 0xF000FFFF⟩, ⟨0xD, "STRD", 0xD0000000, 0xF0FFFFFF⟩,
    ⟨0xE, "LINIT", 0xE0000000, 0xFF00FFFF⟩ ]

/-- R83: the row's test on a word. -/
abbrev OpcodeRow.Spells (row : OpcodeRow) (w : Word) : Prop := w &&& row.mask = row.pattern

/-- `op = w[31:28]` (R81). -/
def opField (w : Word) : BitVec 4 := w.extractLsb' 28 4
/-- `sel = w[27:24]`: a slot number or a register selector (R81, R82). -/
def selField (w : Word) : BitVec 4 := w.extractLsb' 24 4
/-- `link = w[23:16]` (R81, R82). -/
def linkField (w : Word) : LinkNo := w.extractLsb' 16 8
/-- `arg = w[15:0]`: a byte index or a half-register value (R81, R82). -/
def argField (w : Word) : Half := w.extractLsb' 0 16
/-- `b = w[7:0]` (R82). -/
def byteField (w : Word) : Byte := w.extractLsb' 0 8

/-- The test of one row: the command `i` if the word's masked bits match (R84). -/
def spelled (w pattern mask : Word) (i : Instr) : Except DecodeError Instr :=
  if w &&& mask = pattern then .ok i else .error .mustBeZero

/-- R84: `op` alone selects the row, then the row's mask decides. -/
def decode (w : Word) : Except DecodeError Instr :=
  match (opField w).toNat with
  | 0x0 => spelled w 0x00000000 0xFFFFFFFF .nop
  | 0x1 => spelled w 0x10000000 0xFF00FF00 (.rxb (linkField w) (byteField w))
  | 0x2 => spelled w 0x20000000 0xFF00FFFF (.txs (linkField w))
  | 0x3 => spelled w 0x30000000 0xFF00FF00 (.txd (linkField w) (byteField w))
  | 0x4 => spelled w 0x40000000 0xFF00FFFF (.txe (linkField w))
  | 0x5 => spelled w 0x50000000 0xFFFFFFFF .rxqp
  | 0x6 => spelled w 0x60000000 0xF0000000 (.slrd (linkField w) (selField w) (argField w))
  | 0x7 => spelled w 0x70000000 0xF000FFFF (.fchk (linkField w) (selField w))
  | 0x8 => spelled w 0x80000000 0xF000FFFF (.slrl (linkField w) (selField w))
  | 0x9 => spelled w 0x90000000 0xFFFFFFFF .txqp
  | 0xA => spelled w 0xA0000000 0xF0000000 (.cfgl (linkField w) (selField w) (argField w))
  | 0xB => spelled w 0xB0000000 0xF0000000 (.cfgh (linkField w) (selField w) (argField w))
  | 0xC => spelled w 0xC0000000 0xF000FFFF (.cfgr (linkField w) (selField w))
  | 0xD => spelled w 0xD0000000 0xF0FFFFFF (.strd (selField w))
  | 0xE => spelled w 0xE0000000 0xFF00FFFF (.linit (linkField w))
  | _ => .error .reservedOpcode

/-- The command word `op : sel : link : arg` of R81. -/
def packWord (op sel : BitVec 4) (link : LinkNo) (arg : Half) : Word := op ++ sel ++ link ++ arg

/-- The `arg` field of a data byte: `0x00 : byte` (R83, R87). -/
def byteArg (b : Byte) : Half := 0#8 ++ b

/-- The word R87 gives each command. -/
def encode : Instr → Word
  | .nop => packWord 0x0 0 0 0
  | .rxb l b => packWord 0x1 0 l (byteArg b)
  | .txs l => packWord 0x2 0 l 0
  | .txd l b => packWord 0x3 0 l (byteArg b)
  | .txe l => packWord 0x4 0 l 0
  | .rxqp => packWord 0x5 0 0 0
  | .slrd l s i => packWord 0x6 s l i
  | .fchk l s => packWord 0x7 s l 0
  | .slrl l s => packWord 0x8 s l 0
  | .txqp => packWord 0x9 0 0 0
  | .cfgl l r h => packWord 0xA r l h
  | .cfgh l r h => packWord 0xB r l h
  | .cfgr l r => packWord 0xC r l 0
  | .strd r => packWord 0xD r 0 0
  | .linit l => packWord 0xE 0 l 0

/-- The command word whose low `nbits` bits are `w`'s and whose other bits are 0.
A command is one 32-bit word with no byte order (R63, R80), so the table's bit numbers are the word's own. -/
def tableWord (nbits w : Nat) : Word := BitVec.ofNat 32 (w % 2 ^ nbits)

/-- The instruction the decoder reads from a word of `spec/opcode_table.json`.
No command is longer than 32 bits (R80), so a longer one is none. -/
def decodeTableWord (nbits w : Nat) : Option Instr :=
  if nbits ≤ 32 then (decode (tableWord nbits w)).toOption else none

end Sys2Proof
end

