-- ==== Sys2Proof/Config.lean ====
section
/-! DEFINITION. What an implementation fixes (`00_scope.md` R11) and the model's one free value. -/

namespace Sys2Proof

/-- The six parameters of R11.
The model takes them as arguments: every State carries a value of this type that no step writes (R302). -/
structure Params where
  /-- `NLINKS`, number of links (D4). -/
  nLinks : Nat
  /-- `NSLOTS`, frame slots in each link's ring (D5). -/
  nSlots : Nat
  /-- `SLOT_CAP`, bytes in one frame slot (D6). -/
  slotCap : Nat
  /-- `RXQ_CAP`, entries in the RX Descriptor Queue (D7). -/
  rxqCap : Nat
  /-- `TXQ_CAP`, entries in the TX Notification Queue (D8). -/
  txqCap : Nat
  /-- `TX_RING_CAP`, bytes in each link's transmit ring (D9). -/
  txRingCap : Nat
  deriving DecidableEq, Repr

/-- The legal ranges of R11's table. -/
abbrev Params.Legal (p : Params) : Prop :=
  (1 ≤ p.nLinks ∧ p.nLinks ≤ 256) ∧ (1 ≤ p.nSlots ∧ p.nSlots ≤ 16) ∧
  (1 ≤ p.slotCap ∧ p.slotCap ≤ 65535) ∧ (1 ≤ p.rxqCap ∧ p.rxqCap ≤ 65535) ∧
  (1 ≤ p.txqCap ∧ p.txqCap ≤ 65535) ∧ (1 ≤ p.txRingCap ∧ p.txRingCap ≤ 65535)

namespace Config

/-- DESIGN CHOICE (log 2): the parameters State.reset carries, the test values of D4 to D9.
The spec leaves all six OPEN; no statement rests on these numbers. -/
def resetParams : Params :=
  { nLinks := 2, nSlots := 2, slotCap := 16, rxqCap := 2, txqCap := 2, txRingCap := 32 }

/-- A free value (log 5): which of several armed links' drain engines takes the `n`-th step that no
schedule decides. The spec gives no arbitration (R281), so nothing here says what it is. -/
opaque drainPick : Nat → Nat

end Config

end Sys2Proof
end

