-- ==== Sys2Proof/Machine/State.lean ====
section
/-! DEFINITION. The state of the block (`10_state.md`) as plain data, the reasons a step can stop, and the
state after reset (`70_reset_and_hazards.md` R300). -/

namespace Sys2Proof.Machine

/-- The byte storage of one frame slot (R26): cells (index, byte), indices strictly rising.
An unlisted index holds `UNWRITTEN` (R29), which is not a value. -/
abbrev Memory := List Host.Cell

/-- The three ownership states of a frame slot (R27). -/
inductive Own where
  /-- `PROD`: owned by the link's receiver, free to be filled. -/
  | prod
  /-- `QUEUED`: owned by the consumer, its descriptor still in the RX Descriptor Queue. -/
  | queued
  /-- `HELD`: owned by the consumer, its descriptor popped, not yet released. -/
  | held
  deriving DecidableEq, Repr

/-- A frame slot `S[l][s]` (R26). -/
structure Slot where
  own : Own
  len : Half
  fill : Half
  data : Memory
  deriving DecidableEq, Repr

/-- The state of one link `L[l]`, its slots, its registers and its output history (R20 to R47). -/
structure Link where
  /-- Escape pending (R21). -/
  esc : Bool
  /-- Bytes received in the frame in progress (R22). -/
  cnt : Half
  /-- Active frame slot (R23). -/
  act : SlotNo
  /-- `S[l][0..NSLOTS-1]` (R26). -/
  slots : List Slot
  /-- Frame open (R30). -/
  txo : Bool
  /-- Running transmit FCS (R31). -/
  fcs : Half
  /-- Latched transmit mode: false polled, true buffered (R32). -/
  txm : Bool
  /-- Drain armed (R33). -/
  arm : Bool
  /-- Transmit ring, head first (R38; a bounded list as R36 allows). -/
  ring : List Byte
  /-- ACCM_RX, sel 0 (R40). -/
  accmRx : Word
  /-- ACCM_TX, sel 1 (R41). -/
  accmTx : Word
  /-- MAX_RX, sel 2 (R42). -/
  maxRx : Half
  /-- MRU, sel 3 (R43). -/
  mru : Half
  /-- TXMODE, sel 4 (R44). -/
  txMode : Bool
  /-- `Wire(l)`, every byte delivered to the transport, in order (R47). -/
  wire : List Byte
  deriving DecidableEq, Repr

/-- An RX Descriptor Queue entry, naming `S[link][slot]` (R34). -/
structure Descriptor where
  link : LinkNo
  slot : SlotNo
  deriving DecidableEq, Repr

/-- The agents that take steps (R10). -/
inductive Agent where
  /-- `SRC[l]`, the transport's receive side. -/
  | src (l : LinkNo)
  /-- `TXF[l]`, the interrupt-side transmitter. -/
  | txf (l : LinkNo)
  /-- `DRN[l]`, the drain engine. -/
  | drn (l : LinkNo)
  /-- `RXC`, the deferred frame validator. -/
  | rxc
  /-- `TXC`, the deferred transmit reclaimer. -/
  | txc
  /-- `HOST`, the negotiation layer. -/
  | host
  deriving DecidableEq, Repr

/-- One agent step still to come (R9): the schedule of the agents is plain data (log 3). -/
inductive Event where
  /-- Agent `a` issues the command word `w` (R80). -/
  | command (a : Agent) (w : Word)
  /-- `DRN[l]` takes a DRAIN step if it is enabled (R180). -/
  | drain (l : LinkNo)
  /-- The reset input (R300). -/
  | reset
  deriving DecidableEq, Repr

/-- A response word and the agent that issued the command (R14, R86). -/
structure Response where
  addressee : Agent
  word : Word
  deriving DecidableEq, Repr

/-- The spec's fault codes by name (`60_exceptions.md` R271). -/
inductive FaultCode where
  | illegalCommand
  | badLink
  | badSlot
  | slotNotOwned
  | slotReadRange
  | rxSlotBusy
  | txNotOpen
  | txBusy
  | txRingOverrun
  | linkBusy
  deriving DecidableEq, Repr

/-- The whole state of the block, and the model's own fields (the last four and `params`). -/
structure State where
  /-- MODEL: the six parameters, which no step writes (R11, R302; log 1). -/
  params : Params
  /-- `L[0..NLINKS-1]` (R20). -/
  links : List Link
  /-- `G.RXQ`, head first (R34; a bounded list as R36 allows). -/
  rxq : List Descriptor
  /-- `G.TXQ`, head first (R35; a bounded list as R36 allows). -/
  txq : List LinkNo
  /-- `G.RXQ_DROP` (R48). -/
  rxqDrop : Word
  /-- `G.TXQ_DROP` (R48). -/
  txqDrop : Word
  /-- `G.FCS_ERR` (R48). -/
  fcsErr : Word
  /-- `G.MRU_ERR` (R48). -/
  mruErr : Word
  /-- `G.fault_valid` (R50). -/
  faultValid : Bool
  /-- `G.fault_code` (R50). -/
  faultCode : Byte
  /-- `G.fault_cmd` (R50). -/
  faultCmd : Word
  /-- MODEL: the agent steps still to come, first next (R9, R69; log 3). -/
  pending : List Event
  /-- MODEL: the agent whose command was taken last (log 8). -/
  issuer : Agent
  /-- MODEL: the response the latest step returned, if any (R86; log 7). -/
  response : Option Response
  /-- MODEL: how many free choices of a drain engine were drawn (log 5). -/
  draws : Nat
  deriving DecidableEq, Repr

/-- Why a step of the MODEL stops. The spec's own faults are next states with the latch set (R270; log 9). -/
inductive Fault where
  /-- FCHK reads a byte that `fill` claims stored but that is `UNWRITTEN`, which R29 says never reads as a value.
  Raised by `execFchk` only, in states that no run reaches. SAFE: the model stops (log 10). -/
  | unwrittenByte
  deriving DecidableEq, Repr

/-- Why the model gives a command no meaning. -/
inductive Refusal where
  /-- The command has no meaning in this model yet; raised by an arm of `exec`. SAFE: the model stops. -/
  | notModelled (mnemonic : String)
  deriving DecidableEq, Repr

/-- What the body of a command ends in (R14). -/
inductive Result where
  /-- The new state, no response. -/
  | done (s : State)
  /-- The new state, and `respond(v)`. -/
  | reply (s : State) (v : Word)
  /-- `raise Fault(code)`. -/
  | raise (c : FaultCode)
  /-- The model stops. -/
  | stop (r : Fault)
  deriving DecidableEq, Repr

/-- A frame slot after reset (R26, R300). -/
def Slot.atReset : Slot := { own := .prod, len := 0, fill := 0, data := [] }

/-- A link after reset, with `nSlots` slots (R300). -/
def Link.atReset (nSlots : Nat) : Link :=
  { esc := false, cnt := 0, act := 0, slots := List.replicate nSlots Slot.atReset,
    txo := false, fcs := 0xFFFF, txm := false, arm := false, ring := [],
    accmRx := 0xFFFFFFFF, accmTx := 0xFFFFFFFF, maxRx := 0xFFFF, mru := 0xFFFF, txMode := false,
    wire := [] }

/-- The block with parameters `p` right after reset (R300), with nothing pending (log 13). -/
def State.resetWith (p : Params) : State :=
  { params := p, links := List.replicate p.nLinks (Link.atReset p.nSlots), rxq := [], txq := [],
    rxqDrop := 0, txqDrop := 0, fcsErr := 0, mruErr := 0,
    faultValid := false, faultCode := 0, faultCmd := 0,
    pending := [], issuer := .host, response := none, draws := 0 }

/-- The machine right after reset (R300), carrying the parameters of log 2. -/
def State.reset : State := State.resetWith Config.resetParams

end Sys2Proof.Machine
end

