-- ==== Sys2Proof/Machine/Ops.lean ====
section
/-! DEFINITION. The named operations over the block's storage, its registers and its fault latch.
Every meaning goes through them. -/

namespace Sys2Proof.Machine

/-! ### The byte storage of a slot (`10_state.md` R26, R29) -/

/-- The canonical form: indices strictly rising. No cell can hold what an unlisted index reads as, since
`UNWRITTEN` is not a byte. -/
abbrev Memory.wf (m : Memory) : Prop := m.Pairwise (fun x y => x.1 < y.1)

/-- `data[i]`: a byte, or `none` for `UNWRITTEN` (R29). -/
def Memory.read : Memory → Nat → Option Byte
  | [], _ => none
  | c :: m, i => if c.1 = i then some c.2 else Memory.read m i

/-- `data[i] <- v`, keeping the canonical form. -/
def Memory.write : Memory → Nat → Byte → Memory
  | [], i, v => [(i, v)]
  | c :: m, i, v =>
    if i < c.1 then (i, v) :: c :: m
    else if i = c.1 then (i, v) :: m
    else c :: Memory.write m i v

/-- `[data[i], …, data[i+n-1]]`, or `none` if one of them is `UNWRITTEN`. -/
def Memory.bytesFrom (m : Memory) : Nat → Nat → Option (List Byte)
  | _, 0 => some []
  | i, n + 1 =>
    match m.read i, Memory.bytesFrom m (i + 1) n with
    | some b, some bs => some (b :: bs)
    | _, _ => none

/-- `[data[0], …, data[n-1]]` (R210). -/
def Memory.bytes (m : Memory) (n : Nat) : Option (List Byte) := m.bytesFrom 0 n

/-! ### Links and slots: `L[l]`, `S[l][s]` (`00_scope.md` R14) -/

/-- `L[l]`. A link number the list does not hold reads as a link after reset; `State.Shape` and the
link check rule that out (log 12). -/
def State.link (s : State) (l : LinkNo) : Link := s.links.getD l.toNat (Link.atReset s.params.nSlots)

/-- `L[l] <- k`. -/
def State.setLink (s : State) (l : LinkNo) (k : Link) : State := { s with links := s.links.set l.toNat k }

/-- `S[l][i]` of the link `k` (log 12 for a number the list does not hold). -/
def Link.slot (k : Link) (i : SlotNo) : Slot := k.slots.getD i.toNat Slot.atReset

/-- `S[l][i] <- v` in the link `k`. -/
def Link.setSlot (k : Link) (i : SlotNo) (v : Slot) : Link := { k with slots := k.slots.set i.toNat v }

/-- `S[l][i] <- v`. -/
def State.setSlot (s : State) (l : LinkNo) (i : SlotNo) (v : Slot) : State :=
  s.setLink l ((s.link l).setSlot i v)

/-! ### Counters -/

/-- `sat16` (R13). -/
def sat16 (x : Nat) : Half := BitVec.ofNat 16 (min x 0xFFFF)

/-- `G.RXQ_DROP <- (G.RXQ_DROP + 1) mod 2^32` (R48). -/
def State.bumpRxqDrop (s : State) : State := { s with rxqDrop := s.rxqDrop + 1 }
/-- `G.TXQ_DROP <- (G.TXQ_DROP + 1) mod 2^32` (R48). -/
def State.bumpTxqDrop (s : State) : State := { s with txqDrop := s.txqDrop + 1 }
/-- `G.FCS_ERR <- (G.FCS_ERR + 1) mod 2^32` (R48). -/
def State.bumpFcsErr (s : State) : State := { s with fcsErr := s.fcsErr + 1 }
/-- `G.MRU_ERR <- (G.MRU_ERR + 1) mod 2^32` (R48). -/
def State.bumpMruErr (s : State) : State := { s with mruErr := s.mruErr + 1 }

/-! ### The two shared queues (R34 to R37), as the bounded lists R36 allows (log 11) -/

/-- Replaces `G.RXQ`. -/
def State.setRxq (s : State) (q : List Descriptor) : State := { s with rxq := q }
/-- Replaces `G.TXQ`. -/
def State.setTxq (s : State) (q : List LinkNo) : State := { s with txq := q }
/-- `Push(G.RXQ, d)`: at the tail. -/
def State.pushRxq (s : State) (d : Descriptor) : State := s.setRxq (s.rxq ++ [d])
/-- `Push(G.TXQ, l)`: at the tail. -/
def State.pushTxq (s : State) (l : LinkNo) : State := s.setTxq (s.txq ++ [l])

/-! ### Responses and the fault latch (`30_encoding.md` R86, `60_exceptions.md` R270) -/

/-- The step returns no response word. -/
def State.noReply (s : State) : State := { s with response := none }

/-- `respond(v)`: the word goes to the agent that issued the command (R14). -/
def State.respond (s : State) (v : Word) : State := { s with response := some { addressee := s.issuer, word := v } }

/-- The numbers of R271. -/
def FaultCode.code : FaultCode → Byte
  | .illegalCommand => 0x01
  | .badLink => 0x02
  | .badSlot => 0x03
  | .slotNotOwned => 0x04
  | .slotReadRange => 0x05
  | .rxSlotBusy => 0x06
  | .txNotOpen => 0x07
  | .txBusy => 0x08
  | .txRingOverrun => 0x09
  | .linkBusy => 0x0A

/-- Taking a fault: the latch records the code and the whole command word (R270 point 3). -/
def State.latch (s : State) (c : FaultCode) (w : Word) : State :=
  { s with faultValid := true, faultCode := c.code, faultCmd := w }

/-- `raise Fault(code)` of the command word `w`: no write of the command takes effect, no response, the latch is
set and the block halts (R270). -/
def State.takeFault (s : State) (c : FaultCode) (w : Word) : State := (s.latch c w).noReply

/-- The end of a command's atomic step (R68, R270). -/
def State.finish (s : State) (i : Instr) : Result → Host.Outcome State Fault Refusal
  | .done t => .next t.noReply
  | .reply t v => .next (t.respond v)
  | .raise c => .next (s.takeFault c (encode i))
  | .stop r => .fault r

/-- One command as an atomic step: while the latch is set it is ignored (R270), else its body decides. -/
def State.command (s : State) (i : Instr) (body : Result) : Host.Outcome State Fault Refusal :=
  if s.faultValid = true then .next s.noReply else s.finish i body

/-! ### Reset and the model's own fields -/

/-- Replaces the agent steps still to come. -/
def State.setPending (s : State) (e : List Event) : State := { s with pending := e }

/-- A command of agent `a` is taken from the schedule; `rest` is still to come. -/
def State.accept (s : State) (a : Agent) (rest : List Event) : State := { s with pending := rest, issuer := a }

/-- One free choice of a drain engine has been drawn (log 5). -/
def State.drew (s : State) : State := { s with draws := s.draws + 1 }

/-- The reset input (R300): every piece of the block's state takes its reset value, the parameters stay (R302).
The schedule, its free choices and the issuer are the environment's and stay (log 14). -/
def State.applyReset (s : State) : State :=
  { State.resetWith s.params with pending := s.pending, issuer := s.issuer, draws := s.draws }

end Sys2Proof.Machine
end

