-- ==== Sys2Proof/Machine/Flags.lean ====
section
/-! DEFINITION. The status words and output signals computed from the state: LSTAT and TXOCC (`10_state.md` R45,
R46), the STRD values (R49), the interrupt and fault outputs (`60_exceptions.md` R275, R276). -/

namespace Sys2Proof.Machine

/-- One flag bit as a 32-bit word. -/
def flagBit (b : Bool) : Word := if b = true then 1 else 0

/-- LSTAT (R45, R243). -/
def Link.lstat (k : Link) : Word :=
  (k.cnt.setWidth 32 <<< 16) ||| (k.act.setWidth 32 <<< 4) |||
    (flagBit k.txm <<< 3) ||| (flagBit k.arm <<< 2) ||| (flagBit k.txo <<< 1) ||| flagBit k.esc

/-- A FIFO's occupancy in bits 15:0, bits 31:16 zero (R46, R49). -/
def occupancy (n : Nat) : Word := (BitVec.ofNat 16 n).setWidth 32

/-- TXOCC (R46). -/
def Link.txocc (k : Link) : Word := occupancy k.ring.length

/-- `irq_rx = (G.RXQ.occ > 0)` (R275). -/
def State.irqRx (s : State) : Bool := decide (0 < s.rxq.length)

/-- `irq_tx = (G.TXQ.occ > 0)` (R275). -/
def State.irqTx (s : State) : Bool := decide (0 < s.txq.length)

/-- `fault_out = G.fault_valid` (R276). -/
def State.faultOut (s : State) : Bool := s.faultValid

end Sys2Proof.Machine
end

