-- ==== Sys2Proof/Machine/Operands.lean ====
section
/-! DEFINITION. The checks a command runs on its operands before it reads or writes: the register selector
(`44_control.md` R240), the link (`60_exceptions.md` R271), the slot (`43_queues.md` R205), in the order of
`60_exceptions.md` R272. -/

namespace Sys2Proof.Machine

/-- `CfgSelCheck` for CFGL and CFGH: selectors 7 to 15 are reserved, 5 and 6 read-only (R240). -/
def cfgWriteCheck (r : RegSel) (body : Result) : Result :=
  if 7 ≤ r.toNat then .raise .illegalCommand
  else if r.toNat = 5 ∨ r.toNat = 6 then .raise .illegalCommand
  else body

/-- `CfgSelCheck` for CFGR: selectors 7 to 15 are reserved (R240). -/
def cfgReadCheck (r : RegSel) (body : Result) : Result :=
  if 7 ≤ r.toNat then .raise .illegalCommand else body

/-- `CfgSelCheck` for STRD: selectors 6 to 15 are reserved (R240). -/
def strdCheck (r : RegSel) (body : Result) : Result :=
  if 6 ≤ r.toNat then .raise .illegalCommand else body

/-- `if l >= NLINKS: raise Fault(BadLink)`, then the body over `L[l]`. -/
def State.onLink (s : State) (l : LinkNo) (body : Link → Result) : Result :=
  if s.params.nLinks ≤ l.toNat then .raise .badLink else body (s.link l)

/-- `SlotCheck(l, i)`, then the body over the held slot (R205). -/
def State.onHeldSlot (s : State) (l : LinkNo) (i : SlotNo) (body : Link → Slot → Result) : Result :=
  s.onLink l fun k =>
    if s.params.nSlots ≤ i.toNat then .raise .badSlot
    else if (k.slot i).own ≠ .held then .raise .slotNotOwned
    else body k (k.slot i)

end Sys2Proof.Machine
end

