-- ==== Sys2Proof/Machine/Receive.lean ====
section
/-! DEFINITION. The receiver pipeline: RXB (`41_receive.md`). -/

namespace Sys2Proof.Machine

/-- `min(MAX_RX[l], SLOT_CAP)`, how many bytes of a frame are stored (R144). -/
def Link.storeBound (k : Link) (slotCap : Nat) : Nat := min k.maxRx.toNat slotCap

/-- R144's test: no byte of this frame has been discarded, and the bound is not reached. -/
def Link.stores (k : Link) (slotCap : Nat) : Bool :=
  decide ((k.slot k.act).fill = k.cnt) && decide (k.cnt.toNat < k.storeBound slotCap)

/-- The active slot with `d` stored at `data[cnt]` and `fill` incremented (R144). -/
def Link.stored (k : Link) (d : Byte) : Slot :=
  { k.slot k.act with
    data := (k.slot k.act).data.write k.cnt.toNat d
    fill := (k.slot k.act).fill + 1 }

/-- `L[l].cnt <- sat16(L[l].cnt + 1)` (R22, R144). -/
def Link.countByte (k : Link) : Link := { k with cnt := sat16 (k.cnt.toNat + 1) }

/-- `AcceptData(l, d)` over the link `k`, once the active slot is known to be producer-owned: stored or
discarded, and counted (R144). -/
def Link.accept (k : Link) (slotCap : Nat) (d : Byte) : Link :=
  if k.stores slotCap = true then (k.setSlot k.act (k.stored d)).countByte else k.countByte

/-- `AcceptData(l, d)` (R143, R144); `k` is `L[l]` with the escape flag already dealt with. -/
def State.acceptData (s : State) (l : LinkNo) (k : Link) (d : Byte) : Result :=
  if (k.slot k.act).own ≠ .prod then .raise .rxSlotBusy
  else .done (s.setLink l (k.accept s.params.slotCap d))

/-- `act <- (act + 1) mod NSLOTS`, `cnt <- 0` (R146). -/
def Link.nextFrame (k : Link) (nSlots : Nat) : Link :=
  { k with act := BitVec.ofNat 4 ((k.act.toNat + 1) % nSlots), cnt := 0 }

/-- The completed slot: `len <- cnt`, `own <- QUEUED` (R146). -/
def Link.completed (k : Link) : Slot := { k.slot k.act with len := k.cnt, own := .queued }

/-- A slot emptied: `len <- 0`, `fill <- 0`; `data` stays (R29, R146, R245). -/
def Slot.emptied (v : Slot) : Slot := { v with len := 0, fill := 0 }

/-- `CompleteFrame(l)` over the link `k = L[l]` (R146). -/
def State.completeFrame (s : State) (l : LinkNo) (k : Link) : State :=
  if s.rxq.length < s.params.rxqCap then
    (s.setLink l ((k.setSlot k.act k.completed).nextFrame s.params.nSlots)).pushRxq { link := l, slot := k.act }
  else
    (s.setLink l ((k.setSlot k.act (k.slot k.act).emptied).nextFrame s.params.nSlots)).bumpRxqDrop

/-- The body of RXB, by the class of the byte (R115, R141). -/
def rxbBody (l : LinkNo) (b : Byte) (s : State) : Result :=
  s.onLink l fun k =>
    match classify k.esc k.cnt b k.accmRx with
    | .escaped => s.acceptData l { k with esc := false } (unescape b)
    | .escape => .done (s.setLink l { k with esc := true })
    | .frameEnd => .done (s.completeFrame l k)
    | .empty => .done s
    | .dropped => .done s
    | .data => s.acceptData l k b

/-- RXB: receive one byte (R140, R141). -/
def execRxb (l : LinkNo) (b : Byte) (s : State) : Host.Outcome State Fault Refusal :=
  s.command (.rxb l b) (rxbBody l b s)

end Sys2Proof.Machine
end

