-- ==== Sys2Proof/Machine/Control.lean ====
section
/-! DEFINITION. The configuration and control commands: CFGL, CFGH, CFGR, STRD, LINIT, NOP (`44_control.md`). -/

namespace Sys2Proof.Machine

/-- `v[31:16] : h`, the low half replaced (R241). -/
def withLowHalf (v : Word) (h : Half) : Word := v.extractLsb' 16 16 ++ h
/-- `h : v[15:0]`, the high half replaced (R242). -/
def withHighHalf (v : Word) (h : Half) : Word := h ++ v.extractLsb' 0 16

/-- CFGL's write of register `r` (R241). -/
def Link.writeLow (k : Link) (r : RegSel) (h : Half) : Link :=
  match r.toNat with
  | 0 => { k with accmRx := withLowHalf k.accmRx h }
  | 1 => { k with accmTx := withLowHalf k.accmTx h }
  | 2 => { k with maxRx := h }
  | 3 => { k with mru := h }
  | 4 => { k with txMode := h.getLsbD 0 }
  | _ => k

/-- CFGH's write of register `r`: the bits above a register's width ignore writes (R242). -/
def Link.writeHigh (k : Link) (r : RegSel) (h : Half) : Link :=
  match r.toNat with
  | 0 => { k with accmRx := withHighHalf k.accmRx h }
  | 1 => { k with accmTx := withHighHalf k.accmTx h }
  | _ => k

/-- CFGR's value of register `r` (R39, R243). -/
def Link.readReg (k : Link) (r : RegSel) : Word :=
  match r.toNat with
  | 0 => k.accmRx
  | 1 => k.accmTx
  | 2 => k.maxRx.setWidth 32
  | 3 => k.mru.setWidth 32
  | 4 => flagBit k.txMode
  | 5 => k.lstat
  | _ => k.txocc

/-- STRD's value number `r` (R49, R244). -/
def State.readStatus (s : State) (r : RegSel) : Word :=
  match r.toNat with
  | 0 => occupancy s.rxq.length
  | 1 => occupancy s.txq.length
  | 2 => s.rxqDrop
  | 3 => s.txqDrop
  | 4 => s.fcsErr
  | _ => s.mruErr

/-- CFGL: write bits 15:0 of a link register (R241). -/
def execCfgl (l : LinkNo) (r : RegSel) (h : Half) (s : State) : Host.Outcome State Fault Refusal :=
  s.command (.cfgl l r h) (cfgWriteCheck r (s.onLink l fun k => .done (s.setLink l (k.writeLow r h))))

/-- CFGH: write bits 31:16 of a link register (R242). -/
def execCfgh (l : LinkNo) (r : RegSel) (h : Half) (s : State) : Host.Outcome State Fault Refusal :=
  s.command (.cfgh l r h) (cfgWriteCheck r (s.onLink l fun k => .done (s.setLink l (k.writeHigh r h))))

/-- CFGR: read a link register (R243). -/
def execCfgr (l : LinkNo) (r : RegSel) (s : State) : Host.Outcome State Fault Refusal :=
  s.command (.cfgr l r) (cfgReadCheck r (s.onLink l fun k => .reply s (k.readReg r)))

/-- STRD: read a global status value (R244). -/
def execStrd (r : RegSel) (s : State) : Host.Outcome State Fault Refusal :=
  s.command (.strd r) (strdCheck r (.reply s (s.readStatus r)))

/-- R245: a frame is open or draining on the link, or one of its slots is not `PROD`. -/
def Link.busy (k : Link) : Bool := k.txo || k.arm || k.slots.any (fun v => decide (v.own ≠ .prod))

/-- LINIT's writes: the receive state, the slots' `len` and `fill`, the transmit FCS and mode (R245). -/
def Link.reinit (k : Link) : Link :=
  { k with esc := false, cnt := 0, act := 0, slots := k.slots.map Slot.emptied, fcs := fcsSeed, txm := false }

/-- The body of LINIT (R245). -/
def linitBody (l : LinkNo) (s : State) : Result :=
  s.onLink l fun k => if k.busy = true then .raise .linkBusy else .done (s.setLink l k.reinit)

/-- LINIT: reinitialise one quiescent link (R245). -/
def execLinit (l : LinkNo) (s : State) : Host.Outcome State Fault Refusal :=
  s.command (.linit l) (linitBody l s)

/-- NOP does nothing (R246). -/
def execNop (s : State) : Host.Outcome State Fault Refusal := s.command .nop (.done s)

end Sys2Proof.Machine
end

