-- ==== Sys2Proof/Machine/Queues.lean ====
section
/-! DEFINITION. The consumer side of the two queues: RXQP, SLRD, FCHK, SLRL, TXQP (`43_queues.md`). -/

namespace Sys2Proof.Machine

/-- RXQP's response for a popped descriptor: VALID, SLOT, LINK, LEN (`30_encoding.md` R86). -/
def rxqpWord (d : Descriptor) (len : Half) : Word :=
  ((1#32 <<< 31) ||| (d.slot.setWidth 32 <<< 24)) ||| ((d.link.setWidth 32 <<< 16) ||| len.setWidth 32)

/-- TXQP's response for a popped link: VALID, LINK (R86). -/
def txqpWord (l : LinkNo) : Word := (1#32 <<< 31) ||| (l.setWidth 32 <<< 16)

/-- The body of RXQP (R200). -/
def rxqpBody (s : State) : Result :=
  match s.rxq with
  | [] => .reply s 0
  | d :: rest =>
    let v := (s.link d.link).slot d.slot
    .reply ((s.setRxq rest).setSlot d.link d.slot { v with own := .held }) (rxqpWord d v.len)

/-- RXQP: pop the RX Descriptor Queue (R200). -/
def execRxqp (s : State) : Host.Outcome State Fault Refusal := s.command .rxqp (rxqpBody s)

/-- The body of SLRD (R206, R208). A byte that is `UNWRITTEN` is refused like one at or beyond `fill` (R29). -/
def slrdBody (l : LinkNo) (i : SlotNo) (n : Half) (s : State) : Result :=
  s.onHeldSlot l i fun _ v =>
    if v.fill.toNat ≤ n.toNat then .raise .slotReadRange
    else
      match v.data.read n.toNat with
      | none => .raise .slotReadRange
      | some b => .reply s (b.setWidth 32)

/-- SLRD: read one stored byte of a held slot (R206). -/
def execSlrd (l : LinkNo) (i : SlotNo) (n : Half) (s : State) : Host.Outcome State Fault Refusal :=
  s.command (.slrd l i n) (slrdBody l i n s)

/-- FCHK's verdict on the bytes of a frame that passed the size test (R210). -/
def State.fcsVerdict (s : State) (f : Half) : Result :=
  if f = goodFcs then .reply s (f.setWidth 32 <<< 16)
  else .reply s.bumpFcsErr ((f.setWidth 32 <<< 16) ||| 2#32)

/-- The body of FCHK: size before FCS (R210, R211). -/
def fchkBody (l : LinkNo) (i : SlotNo) (s : State) : Result :=
  s.onHeldSlot l i fun k v =>
    if k.mru.toNat < v.len.toNat ∨ v.fill.toNat < v.len.toNat then .reply s.bumpMruErr 1
    else
      match v.data.bytes v.len.toNat with
      | none => .stop .unwrittenByte
      | some d => s.fcsVerdict (fcsOver fcsSeed d)

/-- FCHK: check a held frame's size and FCS (R210). -/
def execFchk (l : LinkNo) (i : SlotNo) (s : State) : Host.Outcome State Fault Refusal :=
  s.command (.fchk l i) (fchkBody l i s)

/-- The body of SLRL (R215); `data` is not cleared (R29). -/
def slrlBody (l : LinkNo) (i : SlotNo) (s : State) : Result :=
  s.onHeldSlot l i fun _ v => .done (s.setSlot l i { v.emptied with own := .prod })

/-- SLRL: release a held slot (R215). -/
def execSlrl (l : LinkNo) (i : SlotNo) (s : State) : Host.Outcome State Fault Refusal :=
  s.command (.slrl l i) (slrlBody l i s)

/-- The body of TXQP (R220). -/
def txqpBody (s : State) : Result :=
  match s.txq with
  | [] => .reply s 0
  | l :: rest => .reply (s.setTxq rest) (txqpWord l)

/-- TXQP: pop the TX Notification Queue (R220). -/
def execTxqp (s : State) : Host.Outcome State Fault Refusal := s.command .txqp (txqpBody s)

end Sys2Proof.Machine
end

