-- ==== Sys2Proof/Machine/Transmit.lean ====
section
/-! DEFINITION. The transmitter pipeline: TXS, TXD, TXE and the autonomous DRAIN step (`42_transmit.md`). -/

namespace Sys2Proof.Machine

/-- `Emit(l, seq)` over the link `k`: to the wire in polled mode, to the ring in buffered mode; `none` when the
bytes do not fit in the ring (R170, R171). -/
def Link.emit (k : Link) (ringCap : Nat) (seq : List Byte) : Option Link :=
  if k.txm = true then
    if ringCap < k.ring.length + seq.length then none else some { k with ring := k.ring ++ seq }
  else some { k with wire := k.wire ++ seq }

/-- `Emit(l, seq)`, then the command's remaining writes to the link (R171). -/
def State.emitThen (s : State) (l : LinkNo) (k : Link) (seq : List Byte) (f : Link → Link) : Result :=
  match k.emit s.params.txRingCap seq with
  | none => .raise .txRingOverrun
  | some k' => .done (s.setLink l (f k'))

/-- The body of TXS (R172). -/
def txsBody (l : LinkNo) (s : State) : Result :=
  s.onLink l fun k =>
    if k.txo = true ∨ k.arm = true then .raise .txBusy
    else
      s.emitThen l { k with txm := k.txMode, fcs := fcsSeed } [flagByte] fun k' =>
        { k' with txo := true }

/-- The body of TXD (R173). -/
def txdBody (l : LinkNo) (b : Byte) (s : State) : Result :=
  s.onLink l fun k =>
    if k.txo = false then .raise .txNotOpen
    else s.emitThen l k (stuff b k.accmTx) fun k' => { k' with fcs := crc k'.fcs b }

/-- The body of TXE (R174). -/
def txeBody (l : LinkNo) (s : State) : Result :=
  s.onLink l fun k =>
    if k.txo = false then .raise .txNotOpen
    else
      s.emitThen l k (frameTail k.fcs k.accmTx) fun k' =>
        { k' with txo := false, arm := if k'.txm = true then true else k'.arm }

/-- TXS: start a frame (R172). -/
def execTxs (l : LinkNo) (s : State) : Host.Outcome State Fault Refusal :=
  s.command (.txs l) (txsBody l s)

/-- TXD: send one payload byte (R173). -/
def execTxd (l : LinkNo) (b : Byte) (s : State) : Host.Outcome State Fault Refusal :=
  s.command (.txd l b) (txdBody l b s)

/-- TXE: end a frame (R174). -/
def execTxe (l : LinkNo) (s : State) : Host.Outcome State Fault Refusal :=
  s.command (.txe l) (txeBody l s)

/-- R180: DRAIN is enabled when `arm = 1`, the ring is not empty and no fault is latched; the link exists. -/
def State.drainEnabled (s : State) (l : LinkNo) : Bool :=
  decide (l.toNat < s.params.nLinks) && (s.link l).arm && decide (0 < (s.link l).ring.length) && !s.faultValid

/-- The completion of a drained frame: the link's number is pushed, or the drop counted (R180). -/
def State.completeDrain (s : State) (l : LinkNo) : State :=
  if s.txq.length < s.params.txqCap then s.pushTxq l else s.bumpTxqDrop

/-- DRAIN(l) (R180). -/
def State.drain (s : State) (l : LinkNo) : State :=
  match (s.link l).ring with
  | [] => s
  | c :: rest =>
    if rest = [] then
      (s.setLink l { s.link l with ring := rest, wire := (s.link l).wire ++ [c], arm := false }).completeDrain l
    else s.setLink l { s.link l with ring := rest, wire := (s.link l).wire ++ [c] }

end Sys2Proof.Machine
end

