-- ==== Sys2Proof/Machine/Dispatch.lean ====
section
/-! DEFINITION. One arm per command. -/

namespace Sys2Proof.Machine

/-- The meaning of a decoded command. -/
def exec (i : Instr) (s : State) : Host.Outcome State Fault Refusal :=
  match i with
  | .nop => Sys2Proof.Machine.execNop s
  | .rxb l b => Sys2Proof.Machine.execRxb l b s
  | .txs l => Sys2Proof.Machine.execTxs l s
  | .txd l b => Sys2Proof.Machine.execTxd l b s
  | .txe l => Sys2Proof.Machine.execTxe l s
  | .rxqp => Sys2Proof.Machine.execRxqp s
  | .slrd l k n => Sys2Proof.Machine.execSlrd l k n s
  | .fchk l k => Sys2Proof.Machine.execFchk l k s
  | .slrl l k => Sys2Proof.Machine.execSlrl l k s
  | .txqp => Sys2Proof.Machine.execTxqp s
  | .cfgl l r h => Sys2Proof.Machine.execCfgl l r h s
  | .cfgh l r h => Sys2Proof.Machine.execCfgh l r h s
  | .cfgr l r => Sys2Proof.Machine.execCfgr l r s
  | .strd r => Sys2Proof.Machine.execStrd r s
  | .linit l => Sys2Proof.Machine.execLinit l s

end Sys2Proof.Machine
end

