-- ==== Sys2Proof/Machine/Agents.lean ====
section
/-! DEFINITION. The agents' steps (`00_scope.md` R9, R10): a command word delivered to the block, a DRAIN step, the
reset input, and what the block does when no agent step is pending. -/

namespace Sys2Proof.Machine

/-- The block meets the word `w`: its command if it spells one, else IllegalCommand (`30_encoding.md` R84);
ignored while the latch is set (`60_exceptions.md` R270). -/
def State.meetWord (s : State) (w : Word) : Host.Outcome State Fault Refusal :=
  match decode w with
  | .ok i => exec i s
  | .error _ => if s.faultValid = true then .next s.noReply else .next (s.takeFault .illegalCommand w)

/-- A scheduled DRAIN step of `DRN[l]`: taken if enabled (`42_transmit.md` R180), else nothing happens (log 6). -/
def State.drainEvent (s : State) (l : LinkNo) : State :=
  if s.drainEnabled l = true then (s.drain l).noReply else s.noReply

/-- The links whose DRAIN step is enabled. -/
def State.drainable (s : State) : List LinkNo :=
  ((List.range s.params.nLinks).map (BitVec.ofNat 8)).filter s.drainEnabled

/-- One element of a list, by the free choice `n`; a single element needs no choice. -/
def chooseFrom {α : Type} (n : Nat) : List α → Option α
  | [] => none
  | [x] => some x
  | x :: y :: r => (x :: y :: r)[n % (x :: y :: r).length]?

/-- With no agent step pending, one enabled drain engine takes its step, which one being free
(R181: a DRAIN step that stays enabled is eventually taken; log 5); with none enabled nothing happens. -/
def State.idle (s : State) : State :=
  match chooseFrom (Config.drainPick s.draws) s.drainable with
  | none => s.noReply
  | some l => ((s.drain l).drew).noReply

/-- One command after another, each a step of its own (`30_encoding.md` R88). -/
def execAll : List Instr → State → Host.Outcome State Fault Refusal
  | [], s => .next s
  | i :: is, s =>
    match exec i s with
    | .next t => execAll is t
    | .fault r => .fault r
    | .refused r => .refused r

/-- `n` DRAIN steps of link `l`, one after another, each taken if enabled. -/
def State.drainTimes (s : State) (l : LinkNo) : Nat → State
  | 0 => s
  | n + 1 => (s.drainEvent l).drainTimes l n

/-- The word placed as the next command of the schedule, issued by HOST (log 4). -/
def State.placeCommand (s : State) (w : Word) : State := s.setPending (.command .host w :: s.pending)

end Sys2Proof.Machine
end

