-- ==== Sys2Proof/Machine/Step.lean ====
section
/-! DEFINITION. One atomic step of the block: the next agent step of the schedule (`20_memory.md` R68, R69). -/

namespace Sys2Proof.Machine

/-- One step: the head of the schedule, or, with nothing scheduled, the drain engines' own step. -/
def step (s : State) : Host.Outcome State Fault Refusal :=
  match s.pending with
  | [] => .next s.idle
  | .command a w :: rest => (s.accept a rest).meetWord w
  | .drain l :: rest => .next ((s.setPending rest).drainEvent l)
  | .reset :: rest => .next (s.setPending rest).applyReset

/-- `s` with the table's word as the next command to arrive. -/
def State.withFetchWord (s : State) (nbits w : Nat) : State := s.placeCommand (tableWord nbits w)

end Sys2Proof.Machine
end

