-- ==== Sys2Proof/Machine/Assembler.lean ====
section
/-! DEFINITION. The assembler syntax and the pseudo-commands of `30_encoding.md` R87, R88 (log 18). -/

namespace Sys2Proof.Machine

/-! ### The pseudo-commands' expansions (R88) -/

/-- `v32[15:0]` and `v32[31:16]`, what CFGW splits its value into. -/
def lowHalfOf (v : Word) : Half := v.extractLsb' 0 16
/-- See `lowHalfOf`. -/
def highHalfOf (v : Word) : Half := v.extractLsb' 16 16

/-- `CFGW l, r, v32`. -/
def expandCfgw (l : LinkNo) (r : RegSel) (v : Word) : List Instr :=
  [.cfgl l r (lowHalfOf v), .cfgh l r (highHalfOf v)]

/-- `TXFRAME l, b0, …, bn-1`. -/
def expandTxframe (l : LinkNo) (p : List Byte) : List Instr :=
  .txs l :: (p.map (fun b => .txd l b) ++ [.txe l])

/-- `RXSEQ l, c0, …, cm-1`. -/
def expandRxseq (l : LinkNo) (c : List Byte) : List Instr := c.map (fun b => .rxb l b)

/-! ### Reading one line (R87): "one command per line. Numbers are decimal or `0x` hexadecimal." -/

/-- A token: the characters between separators. -/
abbrev Token := List Char

/-- The line cut at spaces and commas; `cur` holds the token being read, last character first. -/
def tokensFrom : List Char → Token → List Token
  | [], cur => if cur = [] then [] else [cur.reverse]
  | c :: cs, cur =>
    if c = ' ' ∨ c = ',' then
      if cur = [] then tokensFrom cs [] else cur.reverse :: tokensFrom cs []
    else tokensFrom cs (c :: cur)

/-- The value of a digit of base 16, either case of the letters. -/
def digitValue (c : Char) : Option Nat :=
  let n := c.toNat
  if 48 ≤ n ∧ n ≤ 57 then some (n - 48)
  else if 65 ≤ n ∧ n ≤ 70 then some (n - 55)
  else if 97 ≤ n ∧ n ≤ 102 then some (n - 87)
  else none

/-- The number that digits of a base spell, with `acc` read so far. -/
def digitsFrom (base : Nat) : Token → Nat → Option Nat
  | [], acc => some acc
  | c :: cs, acc =>
    match digitValue c with
    | some d => if d < base then digitsFrom base cs (acc * base + d) else none
    | none => none

/-- A decimal or `0x` hexadecimal number. -/
def numeral : Token → Option Nat
  | [] => none
  | ['0', 'x'] => none
  | '0' :: 'x' :: c :: cs => digitsFrom 16 (c :: cs) 0
  | c :: cs => digitsFrom 10 (c :: cs) 0

/-- A number that fits the field it is written for. -/
def fieldValue (n : Nat) (t : Token) : Option (BitVec n) :=
  match numeral t with
  | some v => if v < 2 ^ n then some (BitVec.ofNat n v) else none
  | none => none

/-- The first name of a list that the token spells gives its position. -/
def namedFrom (t : Token) : List (List Char) → Nat → Option RegSel
  | [], _ => none
  | name :: names, k => if t = name then some (BitVec.ofNat 4 k) else namedFrom t names (k + 1)

/-- The names of the link registers, sel 0 to 6 (R39, R87). -/
def cfgNames : List (List Char) :=
  ["ACCM_RX".toList, "ACCM_TX".toList, "MAX_RX".toList, "MRU".toList, "TXMODE".toList, "LSTAT".toList, "TXOCC".toList]

/-- The names of the status values, sel 0 to 5 (R49, R87). -/
def strdNames : List (List Char) :=
  ["RXQ_OCC".toList, "TXQ_OCC".toList, "RXQ_DROP".toList, "TXQ_DROP".toList, "FCS_ERR".toList, "MRU_ERR".toList]

/-- A register selector, by name or by number. -/
def selector (names : List (List Char)) (t : Token) : Option RegSel :=
  match namedFrom t names 0 with
  | some r => some r
  | none => fieldValue 4 t

/-- A list of data bytes. -/
def byteList : List Token → Option (List Byte)
  | [] => some []
  | t :: ts =>
    match fieldValue 8 t, byteList ts with
    | some b, some bs => some (b :: bs)
    | _, _ => none

/-- A line with a link operand only. -/
def lineLink (f : LinkNo → Instr) : List Token → Option (List Instr)
  | [l] => (fieldValue 8 l).map fun l => [f l]
  | _ => none

/-- A line with a link and a data byte. -/
def lineLinkByte (f : LinkNo → Byte → Instr) : List Token → Option (List Instr)
  | [l, b] =>
    match fieldValue 8 l, fieldValue 8 b with
    | some l, some b => some [f l b]
    | _, _ => none
  | _ => none

/-- A line with a link and a slot. -/
def lineLinkSlot (f : LinkNo → SlotNo → Instr) : List Token → Option (List Instr)
  | [l, s] =>
    match fieldValue 8 l, fieldValue 4 s with
    | some l, some s => some [f l s]
    | _, _ => none
  | _ => none

/-- A line with a link, a selector and a value of `n` bits. -/
def lineLinkReg {n : Nat} (f : LinkNo → RegSel → BitVec n → List Instr) : List Token → Option (List Instr)
  | [l, r, h] =>
    match fieldValue 8 l, selector cfgNames r, fieldValue n h with
    | some l, some r, some h => some (f l r h)
    | _, _, _ => none
  | _ => none

/-- A line with a link and any number of data bytes (R88). -/
def lineLinkBytes (f : LinkNo → List Byte → List Instr) : List Token → Option (List Instr)
  | l :: bs =>
    match fieldValue 8 l, byteList bs with
    | some l, some bs => some (f l bs)
    | _, _ => none
  | [] => none

/-- The commands a line's mnemonic and operand tokens stand for (R87, R88). -/
def assembleTokens : List Token → Option (List Instr)
  | [] => none
  | m :: args =>
    if m = "NOP".toList then (if args = [] then some [.nop] else none)
    else if m = "RXB".toList then lineLinkByte .rxb args
    else if m = "TXS".toList then lineLink .txs args
    else if m = "TXD".toList then lineLinkByte .txd args
    else if m = "TXE".toList then lineLink .txe args
    else if m = "RXQP".toList then (if args = [] then some [.rxqp] else none)
    else if m = "SLRD".toList then
      match args with
      | [l, s, i] =>
        match fieldValue 8 l, fieldValue 4 s, fieldValue 16 i with
        | some l, some s, some i => some [.slrd l s i]
        | _, _, _ => none
      | _ => none
    else if m = "FCHK".toList then lineLinkSlot .fchk args
    else if m = "SLRL".toList then lineLinkSlot .slrl args
    else if m = "TXQP".toList then (if args = [] then some [.txqp] else none)
    else if m = "CFGL".toList then lineLinkReg (n := 16) (fun l r h => [.cfgl l r h]) args
    else if m = "CFGH".toList then lineLinkReg (n := 16) (fun l r h => [.cfgh l r h]) args
    else if m = "CFGR".toList then
      match args with
      | [l, r] =>
        match fieldValue 8 l, selector cfgNames r with
        | some l, some r => some [.cfgr l r]
        | _, _ => none
      | _ => none
    else if m = "STRD".toList then
      match args with
      | [r] => (selector strdNames r).map fun r => [.strd r]
      | _ => none
    else if m = "LINIT".toList then lineLink .linit args
    else if m = "CFGW".toList then lineLinkReg (n := 32) expandCfgw args
    else if m = "TXFRAME".toList then lineLinkBytes expandTxframe args
    else if m = "RXSEQ".toList then lineLinkBytes expandRxseq args
    else none

/-- The command words of one line of assembler text (R87, R88). -/
def assembleLine (text : List Char) : Option (List Word) :=
  (assembleTokens (tokensFrom text [])).map fun is => is.map encode

end Sys2Proof.Machine
end

