-- ==== Sys2Proof/Machine/Fifo.lean ====
section
/-! DEFINITION. The circular buffer of `10_state.md` R36, with its storage and its two indices, beside the bounded
list that State holds in its place: R36 says a model may use either. -/

namespace Sys2Proof.Machine

/-- `E[0..CAP-1]`, `rd` and `wr` (R36). -/
structure Circ (α : Type) where
  store : List (Option α)
  rd : Nat
  wr : Nat
  deriving DecidableEq, Repr

/-- Reset: `rd = wr = 0` (R36); nothing is stored. -/
def circReset (α : Type) (cap : Nat) : Circ α := { store := List.replicate cap none, rd := 0, wr := 0 }

/-- `occ = (wr - rd) mod (2*CAP)` (R36). -/
def circOcc {α : Type} (cap : Nat) (q : Circ α) : Nat := (q.wr + 2 * cap - q.rd) % (2 * cap)

/-- `Push`: `E[wr mod CAP] <- e`, then `wr <- (wr + 1) mod (2*CAP)` (R36). -/
def circPush {α : Type} (cap : Nat) (q : Circ α) (e : α) : Circ α :=
  { q with store := q.store.set (q.wr % cap) (some e), wr := (q.wr + 1) % (2 * cap) }

/-- `Pop`: `E[rd mod CAP]`, then `rd <- (rd + 1) mod (2*CAP)` (R36). -/
def circPop {α : Type} (cap : Nat) (q : Circ α) : Option α × Circ α :=
  ((q.store[q.rd % cap]?).join, { q with rd := (q.rd + 1) % (2 * cap) })

/-- An operation on a queue: an attempted push, or a pop. -/
inductive QueueOp (α : Type) where
  | push (e : α)
  | pop
  deriving DecidableEq, Repr

/-- The answers of the pops of a run on the circular buffer, and its last state. A push is done only when
`occ < CAP` and a pop only when `occ > 0` (R36, R37). -/
def circRun {α : Type} (cap : Nat) : List (QueueOp α) → Circ α → List (Option α) × Circ α
  | [], q => ([], q)
  | .push e :: ops, q =>
    if circOcc cap q < cap then circRun cap ops (circPush cap q e) else circRun cap ops q
  | .pop :: ops, q =>
    if 0 < circOcc cap q then
      let r := circRun cap ops (circPop cap q).2
      ((circPop cap q).1 :: r.1, r.2)
    else
      let r := circRun cap ops q
      (none :: r.1, r.2)

/-- The same run on the bounded list that State holds. -/
def listRun {α : Type} (cap : Nat) : List (QueueOp α) → List α → List (Option α) × List α
  | [], q => ([], q)
  | .push e :: ops, q => if q.length < cap then listRun cap ops (q ++ [e]) else listRun cap ops q
  | .pop :: ops, q =>
    match q with
    | x :: q' =>
      let r := listRun cap ops q'
      (some x :: r.1, r.2)
    | [] =>
      let r := listRun cap ops []
      (none :: r.1, r.2)

end Sys2Proof.Machine
end

