-- ==== Sys2Proof/Safety.lean ====
section
/-! DEFINITION. What counts as a safe run: the invariants of the block, when a command faults
(`60_exceptions.md` R271, R272), and the comparisons of two states that frames are stated in. -/

namespace Sys2Proof.Machine

/-! ### The invariants -/

/-- The parameters are legal and the lists have the sizes they give (R11, R20, R23, R26). -/
abbrev State.Shape (s : State) : Prop :=
  s.params.Legal ∧ s.links.length = s.params.nLinks ∧
  ∀ k ∈ s.links, k.slots.length = s.params.nSlots ∧ k.act.toNat < s.params.nSlots

/-- Every slot's storage is in canonical form and inside `data[0..SLOT_CAP-1]` (R26). -/
abbrev State.StorageOk (s : State) : Prop :=
  ∀ k ∈ s.links, ∀ v ∈ k.slots, v.data.wf ∧ ∀ c ∈ v.data, c.1 < s.params.slotCap

/-- No FIFO holds more entries than its capacity (R34, R35, R37, R38). -/
abbrev State.QueuesBounded (s : State) : Prop :=
  s.rxq.length ≤ s.params.rxqCap ∧ s.txq.length ≤ s.params.txqCap ∧
  ∀ k ∈ s.links, k.ring.length ≤ s.params.txRingCap

/-- The transmit state of a link hangs together (R33, R172, R177, R180): never open and armed at once, an armed
link is buffered and has bytes to send, an idle link and a polled one have an empty ring. -/
abbrev Link.TransmitOk (k : Link) : Prop :=
  ¬(k.txo = true ∧ k.arm = true) ∧
  (k.arm = true → k.txm = true ∧ k.ring ≠ []) ∧
  (k.txo = false → k.arm = false → k.ring = []) ∧
  (k.txm = false → k.ring = [])

/-- Every link's transmit state hangs together. -/
abbrev State.TransmitOk (s : State) : Prop := ∀ k ∈ s.links, k.TransmitOk

/-- Slot number `i` of link `k`, holding `v`, hangs together with the receive state (R22, R26 to R29, R143, R144,
R146): a producer-owned slot has no recorded length and, unless it is being filled, no stored byte; a consumer-owned
slot has a nonzero length that bounds its stored bytes; what `fill` counts has been written. -/
abbrev Link.SlotReceiveOk (k : Link) (slotCap : Nat) (i : Nat) (v : Slot) : Prop :=
  (v.own = .prod → v.len = 0) ∧
  (v.own ≠ .prod → v.len ≠ 0 ∧ v.fill.toNat ≤ v.len.toNat) ∧
  (v.own = .prod → i ≠ k.act.toNat → v.fill = 0) ∧
  (v.own = .prod → i = k.act.toNat → v.fill.toNat ≤ k.cnt.toNat) ∧
  (v.own ≠ .prod → i = k.act.toNat → k.cnt = 0) ∧
  v.fill.toNat ≤ slotCap ∧
  ∀ n < v.fill.toNat, v.data.read n ≠ none

/-- Every slot of every link hangs together with its link's receive state. -/
abbrev State.ReceiveOk (s : State) : Prop :=
  ∀ k ∈ s.links, ∀ i < s.params.nSlots, k.SlotReceiveOk s.params.slotCap i (k.slots.getD i Slot.atReset)

/-- The descriptors in the RX Descriptor Queue are exactly the `QUEUED` slots, each once, and the TX Notification
Queue holds link numbers (R34, R35, R226). -/
abbrev State.DescriptorsOk (s : State) : Prop :=
  s.rxq.Nodup ∧
  (∀ d ∈ s.rxq, d.link.toNat < s.params.nLinks ∧ d.slot.toNat < s.params.nSlots ∧
    ((s.link d.link).slot d.slot).own = .queued) ∧
  (∀ l < s.params.nLinks, ∀ i < s.params.nSlots,
    ((s.link (BitVec.ofNat 8 l)).slot (BitVec.ofNat 4 i)).own = .queued →
      { link := BitVec.ofNat 8 l, slot := BitVec.ofNat 4 i : Descriptor } ∈ s.rxq) ∧
  ∀ l ∈ s.txq, l.toNat < s.params.nLinks

/-- R271: `fault_code = 0x00` holds exactly when `fault_valid = 0`, and only the ten codes are recorded. -/
abbrev State.LatchOk (s : State) : Prop :=
  (s.faultValid = false → s.faultCode = 0 ∧ s.faultCmd = 0) ∧
  (s.faultValid = true → 1 ≤ s.faultCode.toNat ∧ s.faultCode.toNat ≤ 0x0A)

/-- The invariant of the block: every state a run from reset reaches has it. -/
structure State.Inv (s : State) : Prop where
  shape : s.Shape
  storage : s.StorageOk
  queues : s.QueuesBounded
  transmit : s.TransmitOk
  receive : s.ReceiveOk
  descriptors : s.DescriptorsOk
  latch : s.LatchOk

/-- The block runs: no fault is latched (R270). -/
abbrev State.Running (s : State) : Prop := s.faultValid = false

/-! ### When a command faults, from R271 and the order of R272 -/

/-- The link a command names. -/
def linkOperand : Instr → Option LinkNo
  | .nop => none
  | .rxb l _ => some l
  | .txs l => some l
  | .txd l _ => some l
  | .txe l => some l
  | .rxqp => none
  | .slrd l _ _ => some l
  | .fchk l _ => some l
  | .slrl l _ => some l
  | .txqp => none
  | .cfgl l _ _ => some l
  | .cfgh l _ _ => some l
  | .cfgr l _ => some l
  | .strd _ => none
  | .linit l => some l

/-- The slot a command names. -/
def slotOperand : Instr → Option SlotNo
  | .nop => none
  | .rxb _ _ => none
  | .txs _ => none
  | .txd _ _ => none
  | .txe _ => none
  | .rxqp => none
  | .slrd _ i _ => some i
  | .fchk _ i => some i
  | .slrl _ i => some i
  | .txqp => none
  | .cfgl _ _ _ => none
  | .cfgh _ _ _ => none
  | .cfgr _ _ => none
  | .strd _ => none
  | .linit _ => none

/-- Step 5 of R272: the state-dependent checks, in the order each command's pseudocode lists them. -/
def stateFault (s : State) : Instr → Option FaultCode
  | .nop => none
  | .rxb l b =>
    let k := s.link l
    let accepted := k.esc || (b != 0x7D && b != 0x7E && !(decide (b.toNat < 0x20) && k.accmRx.getLsbD b.toNat))
    if accepted && decide ((k.slot k.act).own ≠ .prod) then some .rxSlotBusy else none
  | .txs l => if (s.link l).txo || (s.link l).arm then some .txBusy else none
  | .txd l b =>
    let k := s.link l
    if !k.txo then some .txNotOpen
    else if k.txm && decide (s.params.txRingCap < k.ring.length + (stuff b k.accmTx).length) then some .txRingOverrun
    else none
  | .txe l =>
    let k := s.link l
    if !k.txo then some .txNotOpen
    else if k.txm && decide (s.params.txRingCap < k.ring.length + (frameTail k.fcs k.accmTx).length) then
      some .txRingOverrun
    else none
  | .rxqp => none
  | .slrd l i n =>
    let v := (s.link l).slot i
    if v.own ≠ .held then some .slotNotOwned
    else if v.fill.toNat ≤ n.toNat then some .slotReadRange
    else none
  | .fchk l i => if ((s.link l).slot i).own ≠ .held then some .slotNotOwned else none
  | .slrl l i => if ((s.link l).slot i).own ≠ .held then some .slotNotOwned else none
  | .txqp => none
  | .cfgl _ _ _ => none
  | .cfgh _ _ _ => none
  | .cfgr _ _ => none
  | .strd _ => none
  | .linit l => if (s.link l).busy then some .linkBusy else none

/-- The one fault a command reports: the first of R272's list that applies. Step 1, the decoder's, is over
once there is a decoded command. -/
def faultOf (i : Instr) (s : State) : Option FaultCode :=
  if i.wf = false then some .illegalCommand
  else if ∃ l ∈ linkOperand i, s.params.nLinks ≤ l.toNat then some .badLink
  else if ∃ j ∈ slotOperand i, s.params.nSlots ≤ j.toNat then some .badSlot
  else stateFault s i

/-- R85's list of the reserved and illegal encodings, by the fields of the word. -/
def reservedWord (w : Word) : Bool :=
  let sel := selField w
  let link := linkField w
  let arg := argField w
  match (opField w).toNat with
  | 0x0 => sel != 0 || link != 0 || arg != 0
  | 0x1 => sel != 0 || 256 ≤ arg.toNat
  | 0x2 => sel != 0 || arg != 0
  | 0x3 => sel != 0 || 256 ≤ arg.toNat
  | 0x4 => sel != 0 || arg != 0
  | 0x5 => sel != 0 || link != 0 || arg != 0
  | 0x6 => false
  | 0x7 => arg != 0
  | 0x8 => arg != 0
  | 0x9 => sel != 0 || link != 0 || arg != 0
  | 0xA => 5 ≤ sel.toNat
  | 0xB => 5 ≤ sel.toNat
  | 0xC => 7 ≤ sel.toNat || arg != 0
  | 0xD => 6 ≤ sel.toNat || link != 0 || arg != 0
  | 0xE => sel != 0 || arg != 0
  | _ => true

/-! ### The pseudocode of two spec functions, written over fields -/

/-- R300's table: every piece of the block's state at its reset value. -/
def State.AtReset (t : State) : Prop :=
  t.links.length = t.params.nLinks ∧
  (∀ k ∈ t.links,
    k.esc = false ∧ k.cnt = 0x0000 ∧ k.act = 0 ∧ k.slots.length = t.params.nSlots ∧
    (∀ v ∈ k.slots, v.own = .prod ∧ v.len = 0x0000 ∧ v.fill = 0x0000 ∧ ∀ n, v.data.read n = none) ∧
    k.txo = false ∧ k.fcs = 0xFFFF ∧ k.txm = false ∧ k.arm = false ∧ k.ring = [] ∧
    k.accmRx = 0xFFFFFFFF ∧ k.accmTx = 0xFFFFFFFF ∧ k.maxRx = 0xFFFF ∧ k.mru = 0xFFFF ∧ k.txMode = false ∧
    k.lstat = 0x00000000 ∧ k.txocc = 0x00000000 ∧ k.wire = []) ∧
  t.rxq = [] ∧ t.txq = [] ∧ t.rxqDrop = 0 ∧ t.txqDrop = 0 ∧ t.fcsErr = 0 ∧ t.mruErr = 0 ∧
  t.faultValid = false ∧ t.faultCode = 0x00 ∧ t.faultCmd = 0x00000000 ∧
  t.irqRx = false ∧ t.irqTx = false ∧ t.faultOut = false

/-- `AcceptData(l, d)` of R141 when the active slot is producer-owned, over the link `k`: the count saturates, and
the byte is stored while none was discarded and `cnt < min(MAX_RX, SLOT_CAP)` (R144). -/
def State.dataAccepted (s : State) (l : LinkNo) (k : Link) (d : Byte) : State :=
  let v := k.slot k.act
  s.setLink l { k with
    cnt := if k.cnt = 0xFFFF then 0xFFFF else k.cnt + 1
    slots :=
      if v.fill = k.cnt ∧ k.cnt.toNat < min k.maxRx.toNat s.params.slotCap then
        k.slots.set k.act.toNat { v with data := v.data.write k.cnt.toNat d, fill := v.fill + 1 }
      else k.slots }

/-! ### Comparing two states -/

/-- `data[n]` of slot `i` of link `l`: the read of one byte of the block's storage. -/
def State.byteAt (s : State) (l : LinkNo) (i : SlotNo) (n : Nat) : Option Byte := ((s.link l).slot i).data.read n

/-- The same receive state (R21 to R29). -/
abbrev Link.SameReceive (k k' : Link) : Prop :=
  k'.esc = k.esc ∧ k'.cnt = k.cnt ∧ k'.act = k.act ∧ k'.slots = k.slots

/-- The same transmit state and output history (R30 to R33, R38, R47). -/
abbrev Link.SameTransmit (k k' : Link) : Prop :=
  k'.txo = k.txo ∧ k'.fcs = k.fcs ∧ k'.txm = k.txm ∧ k'.arm = k.arm ∧ k'.ring = k.ring ∧ k'.wire = k.wire

/-- The same configuration registers (R39 to R44). -/
abbrev Link.SameConfig (k k' : Link) : Prop :=
  k'.accmRx = k.accmRx ∧ k'.accmTx = k.accmTx ∧ k'.maxRx = k.maxRx ∧ k'.mru = k.mru ∧ k'.txMode = k.txMode

/-- Every link but `l` is the same. -/
abbrev State.SameOtherLinks (l : LinkNo) (s t : State) : Prop := ∀ l', l' ≠ l → t.link l' = s.link l'

/-- The same RX Descriptor Queue and drop counter. -/
abbrev State.SameRxQueue (s t : State) : Prop := t.rxq = s.rxq ∧ t.rxqDrop = s.rxqDrop

/-- The same TX Notification Queue and drop counter. -/
abbrev State.SameTxQueue (s t : State) : Prop := t.txq = s.txq ∧ t.txqDrop = s.txqDrop

/-- The same verdict counters (R48). -/
abbrev State.SameVerdicts (s t : State) : Prop := t.fcsErr = s.fcsErr ∧ t.mruErr = s.mruErr

/-- The same parameters, schedule, issuer and count of free choices: the fields no command writes. -/
abbrev State.SameModel (s t : State) : Prop :=
  t.params = s.params ∧ t.pending = s.pending ∧ t.issuer = s.issuer ∧ t.draws = s.draws

/-- The same block but for the response of the step and the fault latch. -/
abbrev State.SameBlock (s t : State) : Prop :=
  t.links = s.links ∧ s.SameRxQueue t ∧ s.SameTxQueue t ∧ s.SameVerdicts t ∧ s.SameModel t

/-- A change of the next state, faults and refusals left alone. -/
def mapNext (f : State → State) : Host.Outcome State Fault Refusal → Host.Outcome State Fault Refusal
  | .next t => .next (f t)
  | .fault r => .fault r
  | .refused r => .refused r

/-- The same state after the same command came from agent `a` instead: only the addressee of a response differs. -/
def State.issuedBy (a : Agent) (s : State) : State :=
  { s with issuer := a, response := s.response.map fun r => { r with addressee := a } }

/-- Link `k` with the receive state of `r`. -/
def Link.withReceiveOf (k r : Link) : Link := { k with esc := r.esc, cnt := r.cnt, act := r.act, slots := r.slots }

/-- Link `k` with the transmit state of `r`. -/
def Link.withTransmitOf (k r : Link) : Link :=
  { k with txo := r.txo, fcs := r.fcs, txm := r.txm, arm := r.arm, ring := r.ring, wire := r.wire }

/-- How many slots are `QUEUED`, over all links (R226). -/
def State.queuedSlots (s : State) : Nat := (s.links.map fun k => k.slots.countP fun v => decide (v.own = .queued)).sum

/-- How many bytes the armed links still have to send. -/
def State.bytesToDrain (s : State) : Nat := (s.links.map fun k => if k.arm = true then k.ring.length else 0).sum

end Sys2Proof.Machine
end

