-- ==== Sys2Proof/Certificates/Slice0/Obligations.lean ====
section
/-! DEFINITION. The statements for the provers. Each docstring names the rules of `spec/` it formalises. -/

open Sys2Proof Sys2Proof.Machine

/-! ### Encoding (`30_encoding.md`) -/

/-- R84, R87: the decoder reads every command back from its word, with every operand at every value. -/
def Obligations.DecodeEncodeRoundTrip : Prop := ∀ i : Instr, decode (encode i) = .ok i

/-- R83, R84: the row that `op` selects decides, `op = 0xF` has no row, and no two rows match one word. -/
def Obligations.DecodeFollowsOpcodeMap : Prop :=
  (∀ w : Word, opField w = 0xF → decode w = .error .reservedOpcode) ∧
  (∀ (w : Word), ∀ row ∈ opcodeMap, row.op = opField w →
    (¬ row.Spells w → decode w = .error .mustBeZero) ∧
    (row.Spells w → ∃ i, decode w = .ok i ∧ encode i = w)) ∧
  (∀ (w : Word), ∀ r ∈ opcodeMap, ∀ r' ∈ opcodeMap, r.Spells w → r'.Spells w → r = r')

/-- R88: the pseudo-commands' expansions, for any spelling of the operands. -/
def Obligations.PseudoCommandsExpand : Prop :=
  (∀ (t u v : Token) (l : LinkNo) (r : RegSel) (x : Word),
    fieldValue 8 t = some l → selector cfgNames u = some r → fieldValue 32 v = some x →
    assembleLine ("CFGW ".toList ++ t ++ ", ".toList ++ u ++ ", ".toList ++ v) =
      some [encode (.cfgl l r (x.extractLsb' 0 16)), encode (.cfgh l r (x.extractLsb' 16 16))]) ∧
  (∀ (t : Token) (us : List Token) (l : LinkNo) (p : List Byte), fieldValue 8 t = some l → byteList us = some p →
    assembleLine ("TXFRAME ".toList ++ t ++ us.flatMap fun u => ", ".toList ++ u) =
      some ([encode (.txs l)] ++ p.map (fun b => encode (.txd l b)) ++ [encode (.txe l)])) ∧
  (∀ (t : Token) (us : List Token) (l : LinkNo) (c : List Byte), fieldValue 8 t = some l → byteList us = some c →
    assembleLine ("RXSEQ ".toList ++ t ++ us.flatMap fun u => ", ".toList ++ u) =
      some (c.map fun b => encode (.rxb l b)))

/-- Words written out from R83 and R87, and words that spell nothing. -/
def Obligations.KnownWordsDecode : Prop :=
  decode 0x1001007E = .ok (.rxb 1 0x7E) ∧ decode 0xA4000001 = .ok (.cfgl 0 4 1) ∧
  decode 0x62000003 = .ok (.slrd 0 2 3) ∧ decode 0x300100FF = .ok (.txd 1 0xFF) ∧
  decode 0x81050000 = .ok (.slrl 5 1) ∧ decode 0xD2000000 = .ok (.strd 2) ∧ decode 0xE0020000 = .ok (.linit 2) ∧
  decode 0x10000141 = .error .mustBeZero ∧ decode 0xF0000000 = .error .reservedOpcode

/-- R85: a reserved or illegal word faults with IllegalCommand and has no other effect; every other word is a command
with a legal selector. -/
def Obligations.ReservedWordsFault : Prop :=
  (∀ (s : State) (a : Agent) (w : Word) (rest : List Event),
    s.pending = .command a w :: rest → s.Running → reservedWord w = true →
      step s = .next { s with pending := rest, issuer := a, response := none,
                              faultValid := true, faultCode := 0x01, faultCmd := w }) ∧
  (∀ w : Word, reservedWord w = false ↔ ∃ i, decode w = .ok i ∧ i.wf = true)

/-! ### Steps, faults and reset -/

/-- R80, R84: a delivered word that decodes to `i` is the step `exec i`, with the word taken from the schedule
and its issuer noted. That a reset takes itself from the schedule and leaves the rest of it and the issuer is the
model's choice (log 14). -/
def Obligations.StepRunsDecodedCommand : Prop :=
  (∀ (s : State) (a : Agent) (w : Word) (rest : List Event) (i : Instr),
    s.pending = .command a w :: rest → decode w = .ok i →
      step s = exec i { s with pending := rest, issuer := a }) ∧
  (∀ (s : State) (rest : List Event), s.pending = .reset :: rest →
    ∃ t, step s = .next t ∧ t.pending = rest ∧ t.issuer = s.issuer ∧ t.draws = s.draws)

/-- R270: what raising a fault does, and what the halted block does. -/
def Obligations.RaisedFaultHaltsBlock : Prop :=
  (∀ (i : Instr) (s : State) (c : FaultCode), s.Inv → s.Running → faultOf i s = some c →
    exec i s = .next { s with faultValid := true, faultCode := c.code, faultCmd := encode i, response := none }) ∧
  (∀ (w : Word) (s : State) (e : DecodeError), s.Running → decode w = .error e →
    s.meetWord w = .next { s with faultValid := true, faultCode := 0x01, faultCmd := w, response := none }) ∧
  (∀ s : State, s.faultValid = true →
    (∀ i, exec i s = .next { s with response := none }) ∧ (∀ w, s.meetWord w = .next { s with response := none }) ∧
    (∀ l, s.drainEnabled l = false)) ∧
  (∀ s t : State, s.faultValid = true → step s = .next t → (∀ rest, s.pending ≠ .reset :: rest) →
    t = { s with pending := s.pending.tail, issuer := t.issuer, response := none } ∧
    t.irqRx = s.irqRx ∧ t.irqTx = s.irqTx ∧ t.faultOut = s.faultOut)

/-- R272: a command reports exactly one fault, the first that applies, the decoder's before all others, and completes
where none applies. -/
def Obligations.CommandsFaultExactlyAsListed : Prop :=
  (∀ (w : Word) (s : State) (e : DecodeError), s.Running → decode w = .error e →
    s.meetWord w = .next (s.takeFault .illegalCommand w)) ∧
  (∀ (i : Instr) (s : State), s.Inv → s.Running →
    (∀ c, faultOf i s = some c → s.meetWord (encode i) = .next (s.takeFault c (encode i))) ∧
    (faultOf i s = none →
      ∃ t, s.meetWord (encode i) = .next t ∧ t.faultValid = false ∧ t.faultCode = 0 ∧ t.faultCmd = 0))

/-- R271: the numbers the latch records. -/
def Obligations.FaultCodesNumbered : Prop :=
  ∀ (s : State) (w : Word),
    (s.takeFault .illegalCommand w).faultCode = 0x01 ∧ (s.takeFault .badLink w).faultCode = 0x02 ∧
    (s.takeFault .badSlot w).faultCode = 0x03 ∧ (s.takeFault .slotNotOwned w).faultCode = 0x04 ∧
    (s.takeFault .slotReadRange w).faultCode = 0x05 ∧ (s.takeFault .rxSlotBusy w).faultCode = 0x06 ∧
    (s.takeFault .txNotOpen w).faultCode = 0x07 ∧ (s.takeFault .txBusy w).faultCode = 0x08 ∧
    (s.takeFault .txRingOverrun w).faultCode = 0x09 ∧ (s.takeFault .linkBusy w).faultCode = 0x0A

/-- R301, R48: only reset clears the latch, and only reset clears a counter; any other step leaves a counter alone
or adds one to it. -/
def Obligations.OnlyResetClearsLatchAndCounters : Prop :=
  ∀ s t : State, step s = .next t → (∀ rest, s.pending ≠ .reset :: rest) →
    (s.faultValid = true → t.faultValid = true ∧ t.faultCode = s.faultCode ∧ t.faultCmd = s.faultCmd) ∧
    (t.rxqDrop = s.rxqDrop ∨ t.rxqDrop = s.rxqDrop + 1) ∧ (t.txqDrop = s.txqDrop ∨ t.txqDrop = s.txqDrop + 1) ∧
    (t.fcsErr = s.fcsErr ∨ t.fcsErr = s.fcsErr + 1) ∧ (t.mruErr = s.mruErr ∨ t.mruErr = s.mruErr + 1)

/-- R300: the reset input puts every piece of the block's state to its reset value, from every state, and the
model's reset state has those values for any parameters. That the parameters stay is R302. -/
def Obligations.ResetSetsEveryField : Prop :=
  (∀ (s : State) (rest : List Event), s.pending = .reset :: rest →
    ∃ t, step s = .next t ∧ t.AtReset ∧ t.params = s.params) ∧
  (∀ p : Params, (State.resetWith p).AtReset ∧ (State.resetWith p).params = p)

/-- R303: the reset state has the invariant, for all legal parameters. -/
def Obligations.ResetSatisfiesInv : Prop := (∀ p : Params, p.Legal → (State.resetWith p).Inv) ∧ State.reset.Inv

/-! ### Invariants every step keeps -/

/-- The whole invariant (R26 to R28, R33, R37, R226, R271), and the parameters (R302). -/
def Obligations.StepKeepsInv : Prop := ∀ s t : State, s.Inv → step s = .next t → t.Inv ∧ t.params = s.params

/-- The slot storage keeps its canonical form and stays inside `data[0..SLOT_CAP-1]` (R26). -/
def Obligations.StepKeepsStorageCanonical : Prop :=
  ∀ s t : State, s.StorageOk → step s = .next t → t.StorageOk

/-- R37, R225: no queue and no ring ever reports more items than its capacity. -/
def Obligations.StepKeepsQueuesBounded : Prop :=
  ∀ s t : State, s.QueuesBounded → step s = .next t → t.QueuesBounded

/-- R226: the number of `QUEUED` slots over all links equals the occupancy of the RX Descriptor Queue. -/
def Obligations.QueuedSlotsEqualOccupancy : Prop := ∀ s : State, s.Inv → s.queuedSlots = s.rxq.length

/-! ### Rules of the whole machine -/

/-- R247: only CFGL, CFGH and reset write the configuration registers. -/
def Obligations.OnlyConfigCommandsWriteConfig : Prop :=
  ∀ (s t : State) (l : LinkNo), step s = .next t → ¬ (s.link l).SameConfig (t.link l) →
    (∃ rest, s.pending = .reset :: rest) ∨
    ∃ a w rest r h, s.pending = .command a w :: rest ∧
      (decode w = .ok (.cfgl l r h) ∨ decode w = .ok (.cfgh l r h))

/-- R27: the only edges of a slot's ownership, and the commands that take them; R28: a slot's bytes, `fill` and `len`
are written by RXB only while the slot is `PROD`. -/
def Obligations.SlotOwnershipLifeCycle : Prop :=
  ∀ (i : Instr) (s t : State), s.Inv → exec i s = .next t → ∀ (l : LinkNo) (j : SlotNo),
    ((t.link l).slot j = (s.link l).slot j) ∨
    (((s.link l).slot j).own = .prod ∧ ((t.link l).slot j).own = .prod ∧ ((∃ b, i = .rxb l b) ∨ i = .linit l)) ∨
    (((s.link l).slot j).own = .prod ∧ ((t.link l).slot j).own = .queued ∧ ∃ b, i = .rxb l b) ∨
    (((s.link l).slot j).own = .queued ∧ ((t.link l).slot j).own = .held ∧ i = .rxqp) ∨
    (((s.link l).slot j).own = .held ∧ ((t.link l).slot j).own = .prod ∧ i = .slrl l j)

/-- R281: a command that names a link reads and writes no other link's state: putting any state into another link
before the command or after it is the same. -/
def Obligations.OtherLinksAreNeitherReadNorWritten : Prop :=
  ∀ (i : Instr) (s : State) (l m : LinkNo) (k : Link), linkOperand i = some l → m ≠ l →
    exec i (s.setLink m k) = mapNext (fun t => t.setLink m k) (exec i s)

/-- R183 item 5: no TX command reads or writes receive state, and no RXB reads or writes transmit state. -/
def Obligations.ReceiveAndTransmitAreIndependent : Prop :=
  (∀ (s : State) (l : LinkNo) (r : Link) (i : Instr), (i = .txs l ∨ i = .txe l ∨ ∃ b, i = .txd l b) →
    exec i (s.setLink l ((s.link l).withReceiveOf r)) =
      mapNext (fun t => t.setLink l ((t.link l).withReceiveOf r)) (exec i s)) ∧
  (∀ (s : State) (l : LinkNo) (r : Link) (b : Byte),
    exec (.rxb l b) (s.setLink l ((s.link l).withTransmitOf r)) =
      mapNext (fun t => t.setLink l ((t.link l).withTransmitOf r)) (exec (.rxb l b) s))

/-- R278: the block does not check which agent issues a command; only the response's addressee differs. -/
def Obligations.IssuerIsNotChecked : Prop :=
  ∀ (i : Instr) (s : State) (a : Agent), exec i (s.issuedBy a) = mapNext (State.issuedBy a) (exec i s)

/-- R47, R70: a step never takes back or reorders what is on a wire; only reset empties it. -/
def Obligations.WireOnlyGrows : Prop :=
  ∀ (s t : State) (l : LinkNo), step s = .next t → (∀ rest, s.pending ≠ .reset :: rest) →
    ∃ seq, (t.link l).wire = (s.link l).wire ++ seq

/-- R71, R225: each queue changes by one push at its tail or one pop of its head, or not at all. -/
def Obligations.QueuesChangeByOnePushOrPop : Prop :=
  ∀ s t : State, step s = .next t → (∀ rest, s.pending ≠ .reset :: rest) →
    (t.rxq = s.rxq ∨ (∃ d, s.rxq.length < s.params.rxqCap ∧ t.rxq = s.rxq ++ [d]) ∨ ∃ d, s.rxq = d :: t.rxq) ∧
    (t.txq = s.txq ∨ (∃ l, s.txq.length < s.params.txqCap ∧ t.txq = s.txq ++ [l]) ∨ ∃ l, s.txq = l :: t.txq)

/-- R181: while a link is armed no command changes its ring or disarms it. -/
def Obligations.ArmedRingOnlyDrains : Prop :=
  ∀ (i : Instr) (s t : State) (l : LinkNo), s.Inv → l.toNat < s.params.nLinks → (s.link l).arm = true →
    exec i s = .next t → (t.link l).ring = (s.link l).ring ∧ (t.link l).arm = true

/-- R36: the circular buffer with its two indices, and the bounded list State holds, give the same answers to any
run of pushes and pops from reset, and the same occupancy, which never passes the capacity. -/
def Obligations.CircularBufferIsBoundedList : Prop :=
  ∀ (α : Type) (cap : Nat) (ops : List (QueueOp α)), 1 ≤ cap →
    (circRun cap ops (circReset α cap)).1 = (listRun cap ops []).1 ∧
    circOcc cap (circRun cap ops (circReset α cap)).2 = (listRun cap ops []).2.length ∧
    (listRun cap ops ([] : List α)).2.length ≤ cap ∧
    (circRun cap ops (circReset α cap)).2.rd < 2 * cap ∧ (circRun cap ops (circReset α cap)).2.wr < 2 * cap

/-- R181: with no agent step pending, every armed link's frame reaches its wire, after as many steps as there are
bytes to send. That the drain engines move when nothing is pending is the model's form of weak fairness (log 5). -/
def Obligations.ArmedFramesReachTheWire : Prop :=
  ∀ s : State, s.Inv → s.Running → s.pending = [] →
    ∃ t : State, Sys2Proof.core.run s.bytesToDrain s = .next t ∧
      ∀ l : LinkNo, l.toNat < s.params.nLinks →
        (t.link l).arm = false ∧
        (t.link l).wire = (s.link l).wire ++ (if (s.link l).arm = true then (s.link l).ring else [])

/-! ### The codec (`40_codec.md`) -/

/-- R121: the generator gives the 256 entries the rule prints. -/
def Obligations.GeneratorGivesPrintedTable : Prop :=
  crctPrinted.length = 256 ∧ ∀ k : Byte, crctPrinted[k.toNat]? = some (crct k)

/-- R116, R117, R126: the wire form of a byte, by the byte. -/
def Obligations.StuffedFormOfEachByte : Prop :=
  ∀ (b : Byte) (a : Word),
    (b = 0x7E → stuff b a = [0x7D, 0x5E]) ∧ (b = 0x7D → stuff b a = [0x7D, 0x5D]) ∧
    (b.toNat < 0x20 → a.getLsbD b.toNat = true → stuff b a = [0x7D, b + 0x20]) ∧
    (b.toNat < 0x20 → a.getLsbD b.toNat = false → stuff b a = [b]) ∧
    (0x20 ≤ b.toNat → b ≠ 0x7E → b ≠ 0x7D → stuff b a = [b])

/-- R111, R118: an encoded frame is a flag, a body that holds no flag, and a flag; its length is between `n + 4`
and `2n + 6`. -/
def Obligations.EncodedFrameHasNoInnerFlag : Prop :=
  ∀ (p : List Byte) (a : Word),
    (∃ body, encodeFrame p a = [0x7E] ++ body ++ [0x7E] ∧ (0x7E : Byte) ∉ body) ∧
    p.length + 4 ≤ (encodeFrame p a).length ∧ (encodeFrame p a).length ≤ 2 * p.length + 6

/-- R124: a payload followed by its two FCS bytes has the good residue. -/
def Obligations.ValidFrameHasGoodResidue : Prop :=
  ∀ p : List Byte, fcsOver 0xFFFF (p ++ fcsBytes (fcsOver 0xFFFF p)) = 0xF0B8

/-- R127: changing any single bit of a valid frame makes its residue differ from the good one. -/
def Obligations.SingleBitErrorIsDetected : Prop :=
  ∀ (d : List Byte), fcsOver 0xFFFF d = 0xF0B8 → ∀ (j : Nat) (h : j < d.length) (n : Nat), n < 8 →
    fcsOver 0xFFFF (d.set j (d[j] ^^^ (1#8 <<< n))) ≠ 0xF0B8

/-! ### The receiver (`41_receive.md`) -/

/-- R142, R143: after an escape the byte is data, `b XOR 0x20`, whatever it is; the escape is cleared. -/
def Obligations.RxbEscapedByteIsData : Prop :=
  ∀ (s : State) (l : LinkNo) (b : Byte), s.Running → l.toNat < s.params.nLinks → (s.link l).esc = true →
    (((s.link l).slot (s.link l).act).own = .prod →
      exec (.rxb l b) s = .next (s.dataAccepted l { s.link l with esc := false } (b ^^^ 0x20)).noReply) ∧
    (((s.link l).slot (s.link l).act).own ≠ .prod →
      exec (.rxb l b) s = .next (s.takeFault .rxSlotBusy (encode (.rxb l b))))

/-- R145: an unescaped `0x7D` sets the escape flag, stores nothing, and cannot fault with RxSlotBusy. -/
def Obligations.RxbEscapeMarkerSetsFlag : Prop :=
  ∀ (s : State) (l : LinkNo), s.Running → l.toNat < s.params.nLinks → (s.link l).esc = false →
    exec (.rxb l 0x7D) s = .next (s.setLink l { s.link l with esc := true }).noReply

/-- R146: an unescaped `0x7E` with `cnt = 0` has no effect; with `cnt != 0` it completes the frame, pushing its
descriptor or, with the queue full, dropping the frame and reclaiming the slot. -/
def Obligations.RxbDelimiterCompletesFrame : Prop :=
  ∀ (s : State) (l : LinkNo), s.Inv → s.Running → l.toNat < s.params.nLinks → (s.link l).esc = false →
    let k := s.link l
    let next := BitVec.ofNat 4 ((k.act.toNat + 1) % s.params.nSlots)
    (k.cnt = 0 → exec (.rxb l 0x7E) s = .next s.noReply) ∧
    (k.cnt ≠ 0 → s.rxq.length < s.params.rxqCap →
      exec (.rxb l 0x7E) s = .next
        (({ s with rxq := s.rxq ++ [{ link := l, slot := k.act }] } : State).setLink l
          { k with act := next, cnt := 0
                   slots := k.slots.set k.act.toNat { k.slot k.act with len := k.cnt, own := .queued } }).noReply) ∧
    (k.cnt ≠ 0 → s.rxq.length = s.params.rxqCap →
      exec (.rxb l 0x7E) s = .next
        (({ s with rxqDrop := s.rxqDrop + 1 } : State).setLink l
          { k with act := next, cnt := 0
                   slots := k.slots.set k.act.toNat { k.slot k.act with len := 0, fill := 0 } }).noReply) ∧
    (k.cnt ≠ 0 → (k.slot k.act).own = .prod)

/-- R147, R143: an unescaped byte other than `0x7D` and `0x7E` is dropped when its ACCM_RX bit is set, else it is
data, verbatim. -/
def Obligations.RxbPlainByteIsDroppedOrData : Prop :=
  ∀ (s : State) (l : LinkNo) (b : Byte), s.Running → l.toNat < s.params.nLinks → (s.link l).esc = false →
    b ≠ 0x7D → b ≠ 0x7E →
    (b.toNat < 0x20 ∧ (s.link l).accmRx.getLsbD b.toNat = true → exec (.rxb l b) s = .next s.noReply) ∧
    (¬ (b.toNat < 0x20 ∧ (s.link l).accmRx.getLsbD b.toNat = true) →
      (((s.link l).slot (s.link l).act).own = .prod →
        exec (.rxb l b) s = .next (s.dataAccepted l (s.link l) b).noReply) ∧
      (((s.link l).slot (s.link l).act).own ≠ .prod →
        exec (.rxb l b) s = .next (s.takeFault .rxSlotBusy (encode (.rxb l b)))))

/-- The frame of RXB, for every byte and state: of the whole block it changes at most the receive state of its link,
in the slots at most the active one, the RX Descriptor Queue, `RXQ_DROP`, the latch and the response; and of every byte of
storage at most the one at `data[cnt]` of the active slot, and that only where it stores. -/
def Obligations.RxbFrame : Prop :=
  ∀ (s t : State) (l : LinkNo) (b : Byte), exec (.rxb l b) s = .next t →
    s.SameOtherLinks l t ∧ (s.link l).SameTransmit (t.link l) ∧ (s.link l).SameConfig (t.link l) ∧
    (∀ j, j ≠ (s.link l).act → (t.link l).slot j = (s.link l).slot j) ∧
    s.SameTxQueue t ∧ s.SameVerdicts t ∧ s.SameModel t ∧
    (∀ (m : LinkNo) (j : SlotNo) (n : Nat),
      ¬ (m = l ∧ j = (s.link l).act ∧ n = (s.link l).cnt.toNat ∧ (s.link l).stores s.params.slotCap = true) →
        t.byteAt m j n = s.byteAt m j n)

/-- R125: what the transmitter encodes under a map that covers the receiver's, the receiver stores whole: one frame of
`n + 2` bytes, the payload and then its FCS, with the good residue. -/
def Obligations.EncodedFrameIsReceivedWhole : Prop :=
  ∀ (s : State) (l : LinkNo) (p : List Byte) (a : Word), s.Inv → s.Running → l.toNat < s.params.nLinks →
    (s.link l).esc = false → (s.link l).cnt = 0 → ((s.link l).slot (s.link l).act).own = .prod →
    (s.link l).accmRx &&& ~~~ a = 0 → p.length + 2 ≤ min (s.link l).maxRx.toNat s.params.slotCap →
    s.rxq.length < s.params.rxqCap →
    ∃ t, execAll (expandRxseq l (encodeFrame p a)) s = .next t ∧
      t.rxq = s.rxq ++ [{ link := l, slot := (s.link l).act }] ∧
      (t.link l).esc = false ∧ (t.link l).cnt = 0 ∧
      ((t.link l).slot (s.link l).act).own = .queued ∧
      ((t.link l).slot (s.link l).act).len.toNat = p.length + 2 ∧
      ((t.link l).slot (s.link l).act).fill.toNat = p.length + 2 ∧
      ((t.link l).slot (s.link l).act).data.bytes (p.length + 2) = some (p ++ fcsBytes (fcsOver 0xFFFF p)) ∧
      fcsOver 0xFFFF (p ++ fcsBytes (fcsOver 0xFFFF p)) = 0xF0B8

/-! ### The transmitter (`42_transmit.md`) -/

/-- R172: TXS. -/
def Obligations.TxsOpensFrame : Prop :=
  (∀ (w : Word) (l : LinkNo), decode w = .ok (.txs l) ↔ w = 0x2#4 ++ 0x0#4 ++ l ++ 0x0000#16) ∧
  (∀ (t : Token) (l : LinkNo), fieldValue 8 t = some l →
    assembleLine ("TXS ".toList ++ t) = some [encode (.txs l)]) ∧
  ∀ (s : State) (l : LinkNo), s.Inv → s.Running →
    let k := s.link l
    (s.params.nLinks ≤ l.toNat → exec (.txs l) s = .next (s.takeFault .badLink (encode (.txs l)))) ∧
    (l.toNat < s.params.nLinks → k.txo = true ∨ k.arm = true →
      exec (.txs l) s = .next (s.takeFault .txBusy (encode (.txs l)))) ∧
    (l.toNat < s.params.nLinks → k.txo = false → k.arm = false → k.txMode = false →
      exec (.txs l) s = .next (s.setLink l
        { k with txm := false, fcs := 0xFFFF, wire := k.wire ++ [0x7E], txo := true }).noReply) ∧
    (l.toNat < s.params.nLinks → k.txo = false → k.arm = false → k.txMode = true →
      exec (.txs l) s = .next (s.setLink l
        { k with txm := true, fcs := 0xFFFF, ring := [0x7E], txo := true }).noReply)

/-- R173: TXD. -/
def Obligations.TxdSendsStuffedByte : Prop :=
  (∀ (w : Word) (l : LinkNo) (b : Byte), decode w = .ok (.txd l b) ↔ w = 0x3#4 ++ 0x0#4 ++ l ++ 0x00#8 ++ b) ∧
  (∀ (t u : Token) (l : LinkNo) (b : Byte), fieldValue 8 t = some l → fieldValue 8 u = some b →
    assembleLine ("TXD ".toList ++ t ++ ", ".toList ++ u) = some [encode (.txd l b)]) ∧
  ∀ (s : State) (l : LinkNo) (b : Byte), s.Running →
    let k := s.link l
    let seq := stuff b k.accmTx
    (s.params.nLinks ≤ l.toNat → exec (.txd l b) s = .next (s.takeFault .badLink (encode (.txd l b)))) ∧
    (l.toNat < s.params.nLinks → k.txo = false →
      exec (.txd l b) s = .next (s.takeFault .txNotOpen (encode (.txd l b)))) ∧
    (l.toNat < s.params.nLinks → k.txo = true → k.txm = false →
      exec (.txd l b) s = .next (s.setLink l { k with wire := k.wire ++ seq, fcs := crc k.fcs b }).noReply) ∧
    (l.toNat < s.params.nLinks → k.txo = true → k.txm = true → k.ring.length + seq.length ≤ s.params.txRingCap →
      exec (.txd l b) s = .next (s.setLink l { k with ring := k.ring ++ seq, fcs := crc k.fcs b }).noReply) ∧
    (l.toNat < s.params.nLinks → k.txo = true → k.txm = true → s.params.txRingCap < k.ring.length + seq.length →
      exec (.txd l b) s = .next (s.takeFault .txRingOverrun (encode (.txd l b))))

/-- R174: TXE. -/
def Obligations.TxeEndsFrame : Prop :=
  (∀ (w : Word) (l : LinkNo), decode w = .ok (.txe l) ↔ w = 0x4#4 ++ 0x0#4 ++ l ++ 0x0000#16) ∧
  (∀ (t : Token) (l : LinkNo), fieldValue 8 t = some l →
    assembleLine ("TXE ".toList ++ t) = some [encode (.txe l)]) ∧
  ∀ (s : State) (l : LinkNo), s.Inv → s.Running →
    let k := s.link l
    let v := k.fcs ^^^ 0xFFFF
    let seq := stuff (v.extractLsb' 0 8) k.accmTx ++ stuff (v.extractLsb' 8 8) k.accmTx ++ [0x7E]
    (s.params.nLinks ≤ l.toNat → exec (.txe l) s = .next (s.takeFault .badLink (encode (.txe l)))) ∧
    (l.toNat < s.params.nLinks → k.txo = false →
      exec (.txe l) s = .next (s.takeFault .txNotOpen (encode (.txe l)))) ∧
    (l.toNat < s.params.nLinks → k.txo = true → k.txm = false →
      exec (.txe l) s = .next (s.setLink l { k with wire := k.wire ++ seq, txo := false }).noReply) ∧
    (l.toNat < s.params.nLinks → k.txo = true → k.txm = true → k.ring.length + seq.length ≤ s.params.txRingCap →
      exec (.txe l) s = .next (s.setLink l { k with ring := k.ring ++ seq, txo := false, arm := true }).noReply) ∧
    (l.toNat < s.params.nLinks → k.txo = true → k.txm = true → s.params.txRingCap < k.ring.length + seq.length →
      exec (.txe l) s = .next (s.takeFault .txRingOverrun (encode (.txe l))))

/-- R180: DRAIN, when it is enabled and what it does; a scheduled DRAIN that is not enabled does nothing (log 6). -/
def Obligations.DrainMovesOneByte : Prop :=
  ∀ (s : State) (l : LinkNo) (rest : List Event), s.pending = .drain l :: rest → l.toNat < s.params.nLinks →
    let k := s.link l
    let s' : State := { s with pending := rest, response := none }
    (¬ (k.arm = true ∧ 0 < k.ring.length ∧ s.faultValid = false) → step s = .next s') ∧
    (∀ (c d : Byte) (r : List Byte), k.arm = true → s.faultValid = false → k.ring = c :: d :: r →
      step s = .next (s'.setLink l { k with ring := d :: r, wire := k.wire ++ [c] })) ∧
    (∀ c : Byte, k.arm = true → s.faultValid = false → k.ring = [c] → s.txq.length < s.params.txqCap →
      step s = .next (({ s' with txq := s.txq ++ [l] } : State).setLink l
        { k with ring := [], wire := k.wire ++ [c], arm := false })) ∧
    (∀ c : Byte, k.arm = true → s.faultValid = false → k.ring = [c] → s.params.txqCap ≤ s.txq.length →
      step s = .next (({ s' with txqDrop := s.txqDrop + 1 } : State).setLink l
        { k with ring := [], wire := k.wire ++ [c], arm := false }))

/-- R180, R281: with nothing pending, some link's enabled DRAIN is taken, or none is enabled and nothing happens.
That the engines move only then is the model's form of R181 (log 5). -/
def Obligations.IdleStepTakesSomeDrain : Prop :=
  ∀ s : State, s.pending = [] →
    ((∀ l, s.drainEnabled l = false) → step s = .next s.noReply) ∧
    ((∃ l, s.drainEnabled l = true) →
      ∃ l, s.drainEnabled l = true ∧
        step s = .next { (s.drain l) with draws := s.draws + 1, response := none })

/-- The frame of TXS, TXD and TXE, for every operand and state: of the whole block they change at most the transmit state
and the wire of their link, the latch and the response; TXD not the open, mode and arm bits; TXE not the FCS. No byte of
storage changes. -/
def Obligations.TransmitFrame : Prop :=
  ∀ (s t : State) (l : LinkNo) (i : Instr), (i = .txs l ∨ i = .txe l ∨ ∃ b, i = .txd l b) → exec i s = .next t →
    s.SameOtherLinks l t ∧ (s.link l).SameReceive (t.link l) ∧ (s.link l).SameConfig (t.link l) ∧
    s.SameRxQueue t ∧ s.SameTxQueue t ∧ s.SameVerdicts t ∧ s.SameModel t ∧
    (∀ b, i = .txd l b →
      (t.link l).txo = (s.link l).txo ∧ (t.link l).txm = (s.link l).txm ∧ (t.link l).arm = (s.link l).arm) ∧
    (i = .txe l → (t.link l).fcs = (s.link l).fcs ∧ (t.link l).txm = (s.link l).txm) ∧
    (i = .txs l → (t.link l).arm = (s.link l).arm) ∧
    (∀ (m : LinkNo) (j : SlotNo) (n : Nat), t.byteAt m j n = s.byteAt m j n)

/-- R182, polled: TXFRAME appends exactly the encoded frame to the wire. -/
def Obligations.PolledFrameAppearsOnWire : Prop :=
  ∀ (s : State) (l : LinkNo) (p : List Byte), s.Inv → s.Running → l.toNat < s.params.nLinks →
    (s.link l).txo = false → (s.link l).arm = false → (s.link l).txMode = false →
    execAll (expandTxframe l p) s = .next (s.setLink l
      { s.link l with
        txm := false, fcs := fcsOver 0xFFFF p
        wire := (s.link l).wire ++ encodeFrame p (s.link l).accmTx }).noReply

/-- R182, buffered: TXFRAME puts exactly the encoded frame into the ring, and as many DRAIN steps as it has bytes put it
on the wire, disarm the link, and push its completion or count the drop. -/
def Obligations.BufferedFrameAppearsOnWire : Prop :=
  ∀ (s : State) (l : LinkNo) (p : List Byte), s.Inv → s.Running → l.toNat < s.params.nLinks →
    (s.link l).txo = false → (s.link l).arm = false → (s.link l).txMode = true →
    (encodeFrame p (s.link l).accmTx).length ≤ s.params.txRingCap →
    let frame := encodeFrame p (s.link l).accmTx
    ∃ t, execAll (expandTxframe l p) s = .next t ∧
      t.link l = { s.link l with txm := true, fcs := fcsOver 0xFFFF p, arm := true, ring := frame } ∧
      ((t.drainTimes l frame.length).link l) =
        { s.link l with txm := true, fcs := fcsOver 0xFFFF p, arm := false, ring := [],
                        wire := (s.link l).wire ++ frame } ∧
      (s.txq.length < s.params.txqCap →
        (t.drainTimes l frame.length).txq = s.txq ++ [l] ∧ (t.drainTimes l frame.length).txqDrop = s.txqDrop) ∧
      (s.txq.length = s.params.txqCap →
        (t.drainTimes l frame.length).txq = s.txq ∧ (t.drainTimes l frame.length).txqDrop = s.txqDrop + 1)

/-! ### The queue and slot commands (`43_queues.md`) -/

/-- R200: RXQP. -/
def Obligations.RxqpPopsDescriptor : Prop :=
  (∀ w : Word, decode w = .ok .rxqp ↔ w = 0x50000000) ∧ assembleLine "RXQP".toList = some [0x50000000] ∧
  ∀ s : State, s.Running →
    (s.rxq = [] → exec .rxqp s = .next (s.respond 0x00000000)) ∧
    (∀ d ∈ s.rxq, s.Inv → ((s.link d.link).slot d.slot).own = .queued ∧ ((s.link d.link).slot d.slot).len ≠ 0) ∧
    (∀ (d : Descriptor) (rest : List Descriptor), s.rxq = d :: rest →
      let v := (s.link d.link).slot d.slot
      exec .rxqp s = .next
        ((({ s with rxq := rest } : State).setSlot d.link d.slot { v with own := .held }).respond
          (0x8#4 ++ d.slot ++ d.link ++ v.len)))

/-- R206, R208, R205: SLRD. -/
def Obligations.SlrdReadsHeldByte : Prop :=
  (∀ (w : Word) (l : LinkNo) (j : SlotNo) (n : Half), decode w = .ok (.slrd l j n) ↔ w = 0x6#4 ++ j ++ l ++ n) ∧
  (∀ (t u v : Token) (l : LinkNo) (j : SlotNo) (n : Half),
    fieldValue 8 t = some l → fieldValue 4 u = some j → fieldValue 16 v = some n →
    assembleLine ("SLRD ".toList ++ t ++ ", ".toList ++ u ++ ", ".toList ++ v) = some [encode (.slrd l j n)]) ∧
  ∀ (s : State) (l : LinkNo) (j : SlotNo) (n : Half), s.Inv → s.Running →
    let v := (s.link l).slot j
    (s.params.nLinks ≤ l.toNat → exec (.slrd l j n) s = .next (s.takeFault .badLink (encode (.slrd l j n)))) ∧
    (l.toNat < s.params.nLinks → s.params.nSlots ≤ j.toNat →
      exec (.slrd l j n) s = .next (s.takeFault .badSlot (encode (.slrd l j n)))) ∧
    (l.toNat < s.params.nLinks → j.toNat < s.params.nSlots → v.own ≠ .held →
      exec (.slrd l j n) s = .next (s.takeFault .slotNotOwned (encode (.slrd l j n)))) ∧
    (l.toNat < s.params.nLinks → j.toNat < s.params.nSlots → v.own = .held → v.fill.toNat ≤ n.toNat →
      exec (.slrd l j n) s = .next (s.takeFault .slotReadRange (encode (.slrd l j n)))) ∧
    (l.toNat < s.params.nLinks → j.toNat < s.params.nSlots → v.own = .held → n.toNat < v.fill.toNat →
      ∃ b, v.data.read n.toNat = some b ∧ exec (.slrd l j n) s = .next (s.respond (0x000000#24 ++ b)))

/-- R210, R211: FCHK, size before FCS. -/
def Obligations.FchkGivesVerdict : Prop :=
  (∀ (w : Word) (l : LinkNo) (j : SlotNo), decode w = .ok (.fchk l j) ↔ w = 0x7#4 ++ j ++ l ++ 0x0000#16) ∧
  (∀ (t u : Token) (l : LinkNo) (j : SlotNo), fieldValue 8 t = some l → fieldValue 4 u = some j →
    assembleLine ("FCHK ".toList ++ t ++ ", ".toList ++ u) = some [encode (.fchk l j)]) ∧
  ∀ (s : State) (l : LinkNo) (j : SlotNo), s.Inv → s.Running →
    let v := (s.link l).slot j
    (s.params.nLinks ≤ l.toNat → exec (.fchk l j) s = .next (s.takeFault .badLink (encode (.fchk l j)))) ∧
    (l.toNat < s.params.nLinks → s.params.nSlots ≤ j.toNat →
      exec (.fchk l j) s = .next (s.takeFault .badSlot (encode (.fchk l j)))) ∧
    (l.toNat < s.params.nLinks → j.toNat < s.params.nSlots → v.own ≠ .held →
      exec (.fchk l j) s = .next (s.takeFault .slotNotOwned (encode (.fchk l j)))) ∧
    (l.toNat < s.params.nLinks → j.toNat < s.params.nSlots → v.own = .held →
      (s.link l).mru.toNat < v.len.toNat ∨ v.fill.toNat < v.len.toNat →
      exec (.fchk l j) s = .next (({ s with mruErr := s.mruErr + 1 } : State).respond 0x00000001)) ∧
    (l.toNat < s.params.nLinks → j.toNat < s.params.nSlots → v.own = .held →
      v.len.toNat ≤ (s.link l).mru.toNat → v.len.toNat ≤ v.fill.toNat →
      ∃ d, v.data.bytes v.len.toNat = some d ∧
        (fcsOver 0xFFFF d = 0xF0B8 → exec (.fchk l j) s = .next (s.respond 0xF0B80000)) ∧
        (fcsOver 0xFFFF d ≠ 0xF0B8 →
          exec (.fchk l j) s = .next
            (({ s with fcsErr := s.fcsErr + 1 } : State).respond (fcsOver 0xFFFF d ++ 0x0002#16))))

/-- R215, R205: SLRL, and that a second SLRL of the slot faults with SlotNotOwned. -/
def Obligations.SlrlReleasesSlot : Prop :=
  (∀ (w : Word) (l : LinkNo) (j : SlotNo), decode w = .ok (.slrl l j) ↔ w = 0x8#4 ++ j ++ l ++ 0x0000#16) ∧
  (∀ (t u : Token) (l : LinkNo) (j : SlotNo), fieldValue 8 t = some l → fieldValue 4 u = some j →
    assembleLine ("SLRL ".toList ++ t ++ ", ".toList ++ u) = some [encode (.slrl l j)]) ∧
  ∀ (s : State) (l : LinkNo) (j : SlotNo), s.Shape → s.Running →
    let v := (s.link l).slot j
    (s.params.nLinks ≤ l.toNat → exec (.slrl l j) s = .next (s.takeFault .badLink (encode (.slrl l j)))) ∧
    (l.toNat < s.params.nLinks → s.params.nSlots ≤ j.toNat →
      exec (.slrl l j) s = .next (s.takeFault .badSlot (encode (.slrl l j)))) ∧
    (l.toNat < s.params.nLinks → j.toNat < s.params.nSlots → v.own ≠ .held →
      exec (.slrl l j) s = .next (s.takeFault .slotNotOwned (encode (.slrl l j)))) ∧
    (l.toNat < s.params.nLinks → j.toNat < s.params.nSlots → v.own = .held →
      let t := (s.setSlot l j { v with own := .prod, len := 0, fill := 0 }).noReply
      exec (.slrl l j) s = .next t ∧
      exec (.slrl l j) t = .next (t.takeFault .slotNotOwned (encode (.slrl l j))))

/-- R220: TXQP. -/
def Obligations.TxqpPopsCompletion : Prop :=
  (∀ w : Word, decode w = .ok .txqp ↔ w = 0x90000000) ∧ assembleLine "TXQP".toList = some [0x90000000] ∧
  ∀ s : State, s.Running →
    (s.txq = [] → exec .txqp s = .next (s.respond 0x00000000)) ∧
    (∀ (l : LinkNo) (rest : List LinkNo), s.txq = l :: rest →
      exec .txqp s = .next (({ s with txq := rest } : State).respond (0x80#8 ++ l ++ 0x0000#16)))

/-- The frame of RXQP, SLRL and TXQP, for every operand and state: the registers, the receive and transmit state of every
link but the one slot's ownership (and, for SLRL, its `len` and `fill`), the other queue, the counters; no byte of
storage changes. -/
def Obligations.QueueCommandFrame : Prop :=
  ∀ (s t : State) (i : Instr), exec i s = .next t →
    (i = .rxqp →
      s.SameTxQueue t ∧ t.rxqDrop = s.rxqDrop ∧ s.SameVerdicts t ∧ s.SameModel t ∧
      t.faultValid = s.faultValid ∧ t.faultCode = s.faultCode ∧ t.faultCmd = s.faultCmd ∧
      (∀ (m : LinkNo), (s.link m).SameTransmit (t.link m) ∧ (s.link m).SameConfig (t.link m) ∧
        (t.link m).esc = (s.link m).esc ∧ (t.link m).cnt = (s.link m).cnt ∧ (t.link m).act = (s.link m).act) ∧
      (∀ (m : LinkNo) (j : SlotNo), s.rxq.head? ≠ some { link := m, slot := j } →
        (t.link m).slot j = (s.link m).slot j) ∧
      (∀ (m : LinkNo) (j : SlotNo), ((t.link m).slot j).len = ((s.link m).slot j).len ∧
        ((t.link m).slot j).fill = ((s.link m).slot j).fill) ∧
      ∀ (m : LinkNo) (j : SlotNo) (n : Nat), t.byteAt m j n = s.byteAt m j n) ∧
    (∀ (l : LinkNo) (p : SlotNo), i = .slrl l p →
      s.SameRxQueue t ∧ s.SameTxQueue t ∧ s.SameVerdicts t ∧ s.SameModel t ∧ s.SameOtherLinks l t ∧
      (s.link l).SameTransmit (t.link l) ∧ (s.link l).SameConfig (t.link l) ∧
      (t.link l).esc = (s.link l).esc ∧ (t.link l).cnt = (s.link l).cnt ∧ (t.link l).act = (s.link l).act ∧
      (∀ j, j ≠ p → (t.link l).slot j = (s.link l).slot j) ∧
      ∀ (m : LinkNo) (j : SlotNo) (n : Nat), t.byteAt m j n = s.byteAt m j n) ∧
    (i = .txqp →
      t.links = s.links ∧ s.SameRxQueue t ∧ t.txqDrop = s.txqDrop ∧ s.SameVerdicts t ∧ s.SameModel t ∧
      t.faultValid = s.faultValid ∧ t.faultCode = s.faultCode ∧ t.faultCmd = s.faultCmd)

/-! ### The configuration and control commands (`44_control.md`) -/

/-- R241, R240: CFGL, register by register. -/
def Obligations.CfglWritesLowHalf : Prop :=
  (∀ (w : Word) (l : LinkNo) (r : RegSel) (h : Half), decode w = .ok (.cfgl l r h) ↔ w = 0xA#4 ++ r ++ l ++ h) ∧
  (∀ (t u v : Token) (l : LinkNo) (r : RegSel) (h : Half),
    fieldValue 8 t = some l → selector cfgNames u = some r → fieldValue 16 v = some h →
    assembleLine ("CFGL ".toList ++ t ++ ", ".toList ++ u ++ ", ".toList ++ v) = some [encode (.cfgl l r h)]) ∧
  ∀ (s : State) (l : LinkNo) (h : Half), s.Running →
    let k := s.link l
    (∀ r : RegSel, 5 ≤ r.toNat →
      exec (.cfgl l r h) s = .next (s.takeFault .illegalCommand (encode (.cfgl l r h)))) ∧
    (∀ r : RegSel, r.toNat < 5 → s.params.nLinks ≤ l.toNat →
      exec (.cfgl l r h) s = .next (s.takeFault .badLink (encode (.cfgl l r h)))) ∧
    (l.toNat < s.params.nLinks →
      exec (.cfgl l 0 h) s = .next (s.setLink l { k with accmRx := k.accmRx.extractLsb' 16 16 ++ h }).noReply ∧
      exec (.cfgl l 1 h) s = .next (s.setLink l { k with accmTx := k.accmTx.extractLsb' 16 16 ++ h }).noReply ∧
      exec (.cfgl l 2 h) s = .next (s.setLink l { k with maxRx := h }).noReply ∧
      exec (.cfgl l 3 h) s = .next (s.setLink l { k with mru := h }).noReply ∧
      exec (.cfgl l 4 h) s = .next (s.setLink l { k with txMode := h.getLsbD 0 }).noReply)

/-- R242, R240: CFGH, register by register; the bits above a register's width ignore writes. -/
def Obligations.CfghWritesHighHalf : Prop :=
  (∀ (w : Word) (l : LinkNo) (r : RegSel) (h : Half), decode w = .ok (.cfgh l r h) ↔ w = 0xB#4 ++ r ++ l ++ h) ∧
  (∀ (t u v : Token) (l : LinkNo) (r : RegSel) (h : Half),
    fieldValue 8 t = some l → selector cfgNames u = some r → fieldValue 16 v = some h →
    assembleLine ("CFGH ".toList ++ t ++ ", ".toList ++ u ++ ", ".toList ++ v) = some [encode (.cfgh l r h)]) ∧
  ∀ (s : State) (l : LinkNo) (h : Half), s.Running →
    let k := s.link l
    (∀ r : RegSel, 5 ≤ r.toNat →
      exec (.cfgh l r h) s = .next (s.takeFault .illegalCommand (encode (.cfgh l r h)))) ∧
    (∀ r : RegSel, r.toNat < 5 → s.params.nLinks ≤ l.toNat →
      exec (.cfgh l r h) s = .next (s.takeFault .badLink (encode (.cfgh l r h)))) ∧
    (l.toNat < s.params.nLinks →
      exec (.cfgh l 0 h) s = .next (s.setLink l { k with accmRx := h ++ k.accmRx.extractLsb' 0 16 }).noReply ∧
      exec (.cfgh l 1 h) s = .next (s.setLink l { k with accmTx := h ++ k.accmTx.extractLsb' 0 16 }).noReply ∧
      ∀ r : RegSel, r = 2 ∨ r = 3 ∨ r = 4 → exec (.cfgh l r h) s = .next (s.setLink l k).noReply)

/-- R243, R240, R45, R46: CFGR, register by register, LSTAT by its fields. -/
def Obligations.CfgrReadsRegister : Prop :=
  (∀ (w : Word) (l : LinkNo) (r : RegSel), decode w = .ok (.cfgr l r) ↔ w = 0xC#4 ++ r ++ l ++ 0x0000#16) ∧
  (∀ (t u : Token) (l : LinkNo) (r : RegSel), fieldValue 8 t = some l → selector cfgNames u = some r →
    assembleLine ("CFGR ".toList ++ t ++ ", ".toList ++ u) = some [encode (.cfgr l r)]) ∧
  ∀ (s : State) (l : LinkNo), s.Inv → s.Running →
    let k := s.link l
    (∀ r : RegSel, 7 ≤ r.toNat →
      exec (.cfgr l r) s = .next (s.takeFault .illegalCommand (encode (.cfgr l r)))) ∧
    (∀ r : RegSel, r.toNat < 7 → s.params.nLinks ≤ l.toNat →
      exec (.cfgr l r) s = .next (s.takeFault .badLink (encode (.cfgr l r)))) ∧
    (l.toNat < s.params.nLinks →
      exec (.cfgr l 0) s = .next (s.respond k.accmRx) ∧
      exec (.cfgr l 1) s = .next (s.respond k.accmTx) ∧
      exec (.cfgr l 2) s = .next (s.respond (0#16 ++ k.maxRx)) ∧
      exec (.cfgr l 3) s = .next (s.respond (0#16 ++ k.mru)) ∧
      exec (.cfgr l 4) s = .next (s.respond (0#31 ++ BitVec.ofBool k.txMode)) ∧
      exec (.cfgr l 5) s = .next (s.respond (k.cnt ++ 0#8 ++ k.act ++
        BitVec.ofBool k.txm ++ BitVec.ofBool k.arm ++ BitVec.ofBool k.txo ++ BitVec.ofBool k.esc)) ∧
      exec (.cfgr l 6) s = .next (s.respond (BitVec.ofNat 32 k.ring.length)))

/-- R244, R240, R49: STRD, value by value. -/
def Obligations.StrdReadsStatus : Prop :=
  (∀ (w : Word) (r : RegSel), decode w = .ok (.strd r) ↔ w = 0xD#4 ++ r ++ 0x000000#24) ∧
  (∀ (t : Token) (r : RegSel), selector strdNames t = some r →
    assembleLine ("STRD ".toList ++ t) = some [encode (.strd r)]) ∧
  ∀ s : State, s.Inv → s.Running →
    (∀ r : RegSel, 6 ≤ r.toNat →
      exec (.strd r) s = .next (s.takeFault .illegalCommand (encode (.strd r)))) ∧
    exec (.strd 0) s = .next (s.respond (BitVec.ofNat 32 s.rxq.length)) ∧
    exec (.strd 1) s = .next (s.respond (BitVec.ofNat 32 s.txq.length)) ∧
    exec (.strd 2) s = .next (s.respond s.rxqDrop) ∧ exec (.strd 3) s = .next (s.respond s.txqDrop) ∧
    exec (.strd 4) s = .next (s.respond s.fcsErr) ∧ exec (.strd 5) s = .next (s.respond s.mruErr)

/-- R245: LINIT. -/
def Obligations.LinitReinitialisesQuiescentLink : Prop :=
  (∀ (w : Word) (l : LinkNo), decode w = .ok (.linit l) ↔ w = 0xE#4 ++ 0x0#4 ++ l ++ 0x0000#16) ∧
  (∀ (t : Token) (l : LinkNo), fieldValue 8 t = some l →
    assembleLine ("LINIT ".toList ++ t) = some [encode (.linit l)]) ∧
  ∀ (s : State) (l : LinkNo), s.Inv → s.Running →
    let k := s.link l
    let quiescent := k.txo = false ∧ k.arm = false ∧ ∀ j : SlotNo, j.toNat < s.params.nSlots → (k.slot j).own = .prod
    (s.params.nLinks ≤ l.toNat → exec (.linit l) s = .next (s.takeFault .badLink (encode (.linit l)))) ∧
    (l.toNat < s.params.nLinks → ¬ quiescent →
      exec (.linit l) s = .next (s.takeFault .linkBusy (encode (.linit l)))) ∧
    (l.toNat < s.params.nLinks → quiescent → k.ring = [] ∧
      exec (.linit l) s = .next (s.setLink l
        { k with esc := false, cnt := 0, act := 0, fcs := 0xFFFF, txm := false
                 slots := k.slots.map fun v => { v with len := 0, fill := 0 } }).noReply)

/-- R246: NOP does nothing, and any other word with `op = 0x0` is illegal. -/
def Obligations.NopDoesNothing : Prop :=
  (∀ w : Word, decode w = .ok .nop ↔ w = 0x00000000) ∧ assembleLine "NOP".toList = some [0x00000000] ∧
  ∀ s : State, s.Running →
    exec .nop s = .next { s with response := none } ∧
    ∀ w : Word, opField w = 0x0 → w ≠ 0x00000000 → s.meetWord w = .next (s.takeFault .illegalCommand w)

/-- The frame of CFGL, CFGH and LINIT, for every operand and state: no queue, no counter, no other link, no wire, no ring
and no byte of storage changes; CFGL and CFGH change no receive or transmit state, LINIT no register. -/
def Obligations.ConfigCommandFrame : Prop :=
  ∀ (s t : State) (l : LinkNo) (i : Instr),
    ((∃ r h, i = .cfgl l r h) ∨ (∃ r h, i = .cfgh l r h) ∨ i = .linit l) → exec i s = .next t →
    s.SameOtherLinks l t ∧ s.SameRxQueue t ∧ s.SameTxQueue t ∧ s.SameVerdicts t ∧ s.SameModel t ∧
    (t.link l).wire = (s.link l).wire ∧ (t.link l).ring = (s.link l).ring ∧
    (t.link l).txo = (s.link l).txo ∧ (t.link l).arm = (s.link l).arm ∧
    (i ≠ .linit l → (s.link l).SameReceive (t.link l) ∧ (s.link l).SameTransmit (t.link l)) ∧
    (i = .linit l → (s.link l).SameConfig (t.link l)) ∧
    (∀ (m : LinkNo) (j : SlotNo) (n : Nat), t.byteAt m j n = s.byteAt m j n)

/-- R67: NOP, SLRD, CFGR and STRD change nothing but the response and, on a fault, the latch; FCHK changes at most one
verdict counter besides. No byte of storage changes. -/
def Obligations.ReadCommandFrame : Prop :=
  ∀ (s t : State) (i : Instr), exec i s = .next t →
    ((i = .nop ∨ (∃ l j n, i = .slrd l j n) ∨ (∃ l r, i = .cfgr l r) ∨ ∃ r, i = .strd r) → s.SameBlock t) ∧
    (∀ (l : LinkNo) (j : SlotNo), i = .fchk l j →
      t.links = s.links ∧ s.SameRxQueue t ∧ s.SameTxQueue t ∧ s.SameModel t ∧
      (t.fcsErr = s.fcsErr ∨ t.mruErr = s.mruErr)) ∧
    (i = .nop → t.faultValid = s.faultValid ∧ t.faultCode = s.faultCode ∧ t.faultCmd = s.faultCmd)

/-- R14, R29, R310: what the storage operations the other statements name do: a byte, a slot and a link read back what was
last written, and nothing else changes. -/
def Obligations.StorageReadsBackWhatWasWritten : Prop :=
  (∀ (m : Memory) (i j : Nat) (v : Byte), (m.write i v).read j = if j = i then some v else m.read j) ∧
  (∀ (m : Memory) (i : Nat) (v : Byte), m.wf → (m.write i v).wf) ∧
  (∀ (s : State) (l m : LinkNo) (k : Link), s.Shape → l.toNat < s.params.nLinks →
    (s.setLink l k).link m = if m = l then k else s.link m) ∧
  (∀ (s : State) (l m : LinkNo) (p j : SlotNo) (v : Slot), s.Shape → l.toNat < s.params.nLinks →
    p.toNat < s.params.nSlots →
    ((s.setSlot l p v).link m).slot j = if m = l ∧ j = p then v else (s.link m).slot j)
end

