-- ==== Sys2Proof/Laws/Assembler.lean ====
section
/-! SUPPORT. What the assembler's tokeniser does with a line that is a mnemonic and its operands. -/

namespace Sys2Proof.Machine

/-- A token with at least one character, none of them a separator. -/
abbrev Clean (t : Token) : Prop := t ≠ [] ∧ ∀ c ∈ t, c ≠ ' ' ∧ c ≠ ','

theorem digitValue_separator {c : Char} {d : Nat} (h : digitValue c = some d) : c ≠ ' ' ∧ c ≠ ',' := by
  have hs : digitValue ' ' = none := by decide
  have hc : digitValue ',' = none := by decide
  constructor <;> rintro rfl <;> simp_all

theorem digitsFrom_clean {base : Nat} : ∀ {t : Token} {acc v : Nat}, digitsFrom base t acc = some v →
    ∀ c ∈ t, c ≠ ' ' ∧ c ≠ ','
  | [], _, _, _ => by simp
  | c :: cs, acc, v, h => by
    unfold digitsFrom at h
    split at h
    · next d hd =>
      split at h
      · simpa using ⟨digitValue_separator hd, digitsFrom_clean h⟩
      · exact absurd h (by simp)
    · exact absurd h (by simp)

theorem numeral_clean {t : Token} {v : Nat} (h : numeral t = some v) : Clean t := by
  unfold numeral at h
  split at h
  · exact absurd h (by simp)
  · exact absurd h (by simp)
  · refine ⟨by simp, ?_⟩
    have := digitsFrom_clean h
    simp only [List.mem_cons, forall_eq_or_imp] at this ⊢
    exact ⟨by decide, by decide, this⟩
  · exact ⟨by simp, digitsFrom_clean h⟩

theorem fieldValue_clean {n : Nat} {t : Token} {v : BitVec n} (h : fieldValue n t = some v) : Clean t := by
  unfold fieldValue at h
  split at h
  · next w hw => exact numeral_clean hw
  · exact absurd h (by simp)

theorem namedFrom_mem {t : Token} : ∀ {names : List (List Char)} {k : Nat} {r : RegSel},
    namedFrom t names k = some r → t ∈ names
  | [], _, _, h => absurd h (by simp [namedFrom])
  | name :: names, k, r, h => by
    unfold namedFrom at h
    split at h
    · next he => simp [he]
    · exact List.mem_cons_of_mem _ (namedFrom_mem h)

theorem selector_clean {names : List (List Char)} (hn : ∀ name ∈ names, Clean name) {t : Token} {r : RegSel}
    (h : selector names t = some r) : Clean t := by
  unfold selector at h
  split at h
  · next hr => exact hn _ (namedFrom_mem hr)
  · exact fieldValue_clean h

theorem cfgNames_clean : ∀ name ∈ cfgNames, Clean name := by simp [cfgNames, Clean]

theorem strdNames_clean : ∀ name ∈ strdNames, Clean name := by simp [strdNames, Clean]

theorem byteList_clean : ∀ {ts : List Token} {bs : List Byte}, byteList ts = some bs → ∀ t ∈ ts, Clean t
  | [], _, _ => by simp
  | t :: ts, bs, h => by
    unfold byteList at h
    split at h
    · next b bs' hb hbs => simpa using ⟨fieldValue_clean hb, fun t ht => byteList_clean hbs t ht⟩
    · exact absurd h (by simp)

/-- A clean token is read to its end. -/
theorem tokensFrom_append {t : Token} (h : ∀ c ∈ t, c ≠ ' ' ∧ c ≠ ',') (rest : List Char) : ∀ cur : Token,
    tokensFrom (t ++ rest) cur = tokensFrom rest (t.reverse ++ cur) := by
  induction t with
  | nil => intro cur; rfl
  | cons c t ih =>
    intro cur
    simp only [List.mem_cons, forall_eq_or_imp] at h
    simp [tokensFrom, h.1, ih h.2]

/-- The last token of a line. -/
theorem tokensFrom_last {t : Token} (h : Clean t) : tokensFrom t [] = [t] := by
  have := tokensFrom_append h.2 [] []
  simpa [tokensFrom, h.1] using this

/-- A token before a separator. -/
theorem tokensFrom_sep {t : Token} (h : Clean t) {c : Char} (hc : c = ' ' ∨ c = ',') (rest : List Char) :
    tokensFrom (t ++ c :: rest) [] = t :: tokensFrom rest [] := by
  rw [tokensFrom_append h.2]
  simp [tokensFrom, hc, h.1]

/-- Separators before a token change nothing. -/
theorem tokensFrom_space (rest : List Char) : tokensFrom (' ' :: rest) [] = tokensFrom rest [] := by
  simp [tokensFrom]

/-- A mnemonic and one operand. -/
theorem tokensFrom_one {m t : Token} (hm : Clean m) (ht : Clean t) : tokensFrom (m ++ [' '] ++ t) [] = [m, t] := by
  simp [tokensFrom_sep hm, tokensFrom_last ht]

/-- A token, a comma and a space, and the rest. -/
theorem tokensFrom_comma {t : Token} (ht : Clean t) (rest : List Char) :
    tokensFrom (t ++ [',', ' '] ++ rest) [] = t :: tokensFrom rest [] := by
  simp [tokensFrom_sep ht, tokensFrom_space]

/-- A mnemonic, a space, and the rest. -/
theorem tokensFrom_mnemonic {m : Token} (hm : Clean m) (rest : List Char) :
    tokensFrom (m ++ [' '] ++ rest) [] = m :: tokensFrom rest [] := by
  simp [tokensFrom_sep hm]

/-- A token and any number of further ones, each after a comma and a space. -/
theorem tokensFrom_list {t : Token} (ht : Clean t) {us : List Token} (hu : ∀ u ∈ us, Clean u) :
    tokensFrom (t ++ us.flatMap (fun u => [',', ' '] ++ u)) [] = t :: us := by
  induction us generalizing t with
  | nil => simpa using tokensFrom_last ht
  | cons u us ih =>
    simp only [List.mem_cons, forall_eq_or_imp] at hu
    have := tokensFrom_comma ht (u ++ us.flatMap (fun u => [',', ' '] ++ u))
    rw [ih hu.1 hu.2] at this
    simpa using this

end Sys2Proof.Machine
end

