-- ==== Sys2Proof/Laws/Codec.lean ====
section
/-! SUPPORT. The codec's functions on the empty sequence, on one more byte, and on appended sequences. -/

namespace Sys2Proof.Machine

@[simp] theorem fcsOver_nil (f : Half) : fcsOver f [] = f := rfl

@[simp] theorem fcsOver_cons (f : Half) (b : Byte) (c : List Byte) : fcsOver f (b :: c) = fcsOver (crc f b) c := rfl

/-- R122: the segmentation does not change the result. -/
theorem fcsOver_append (f : Half) (c d : List Byte) : fcsOver f (c ++ d) = fcsOver (fcsOver f c) d := by
  simp [fcsOver, List.foldl_append]

@[simp] theorem stuffAll_nil (a : Word) : stuffAll [] a = [] := rfl

@[simp] theorem stuffAll_cons (b : Byte) (p : List Byte) (a : Word) :
    stuffAll (b :: p) a = stuff b a ++ stuffAll p a := by
  simp [stuffAll]

theorem stuffAll_append (p q : List Byte) (a : Word) : stuffAll (p ++ q) a = stuffAll p a ++ stuffAll q a := by
  simp [stuffAll]

theorem stuff_escaped {b : Byte} {a : Word} (h : needsEsc b a = true) : stuff b a = [escByte, b ^^^ xorValue] := by
  simp [stuff, h]

theorem stuff_verbatim {b : Byte} {a : Word} (h : needsEsc b a = false) : stuff b a = [b] := by
  simp [stuff, h]

theorem stuff_length (b : Byte) (a : Word) : (stuff b a).length = 1 ∨ (stuff b a).length = 2 := by
  unfold stuff
  split <;> simp

theorem needsEsc_false {b : Byte} {a : Word} (h : needsEsc b a = false) :
    b ≠ flagByte ∧ b ≠ escByte ∧ accmMarks a b = false := by
  simpa [needsEsc, and_assoc] using h

/-- R112: XOR with `0x20` is its own inverse. -/
theorem unescape_xorValue (b : Byte) : unescape (b ^^^ xorValue) = b := by
  simp [unescape]

end Sys2Proof.Machine
end

