-- ==== Sys2Proof/Laws/State.lean ====
section
/-! SUPPORT. One lemma per field per update of State and of Link, true by rfl, so that no later proof unfolds a
record update. -/

namespace Sys2Proof.Machine

section StateFields
variable (s : State)

@[simp] theorem State.setLink_params (l : LinkNo) (k : Link) : (s.setLink l k).params = s.params := rfl
@[simp] theorem State.setLink_links (l : LinkNo) (k : Link) : (s.setLink l k).links = s.links.set l.toNat k := rfl
@[simp] theorem State.setLink_rxq (l : LinkNo) (k : Link) : (s.setLink l k).rxq = s.rxq := rfl
@[simp] theorem State.setLink_txq (l : LinkNo) (k : Link) : (s.setLink l k).txq = s.txq := rfl
@[simp] theorem State.setLink_rxqDrop (l : LinkNo) (k : Link) : (s.setLink l k).rxqDrop = s.rxqDrop := rfl
@[simp] theorem State.setLink_txqDrop (l : LinkNo) (k : Link) : (s.setLink l k).txqDrop = s.txqDrop := rfl
@[simp] theorem State.setLink_fcsErr (l : LinkNo) (k : Link) : (s.setLink l k).fcsErr = s.fcsErr := rfl
@[simp] theorem State.setLink_mruErr (l : LinkNo) (k : Link) : (s.setLink l k).mruErr = s.mruErr := rfl
@[simp] theorem State.setLink_faultValid (l : LinkNo) (k : Link) : (s.setLink l k).faultValid = s.faultValid := rfl
@[simp] theorem State.setLink_faultCode (l : LinkNo) (k : Link) : (s.setLink l k).faultCode = s.faultCode := rfl
@[simp] theorem State.setLink_faultCmd (l : LinkNo) (k : Link) : (s.setLink l k).faultCmd = s.faultCmd := rfl
@[simp] theorem State.setLink_pending (l : LinkNo) (k : Link) : (s.setLink l k).pending = s.pending := rfl
@[simp] theorem State.setLink_issuer (l : LinkNo) (k : Link) : (s.setLink l k).issuer = s.issuer := rfl
@[simp] theorem State.setLink_response (l : LinkNo) (k : Link) : (s.setLink l k).response = s.response := rfl
@[simp] theorem State.setLink_draws (l : LinkNo) (k : Link) : (s.setLink l k).draws = s.draws := rfl

@[simp] theorem State.setSlot_params (l : LinkNo) (i : SlotNo) (v : Slot) : (s.setSlot l i v).params = s.params := rfl
@[simp] theorem State.setSlot_links (l : LinkNo) (i : SlotNo) (v : Slot) : (s.setSlot l i v).links = s.links.set l.toNat ((s.link l).setSlot i v) := rfl
@[simp] theorem State.setSlot_rxq (l : LinkNo) (i : SlotNo) (v : Slot) : (s.setSlot l i v).rxq = s.rxq := rfl
@[simp] theorem State.setSlot_txq (l : LinkNo) (i : SlotNo) (v : Slot) : (s.setSlot l i v).txq = s.txq := rfl
@[simp] theorem State.setSlot_rxqDrop (l : LinkNo) (i : SlotNo) (v : Slot) : (s.setSlot l i v).rxqDrop = s.rxqDrop := rfl
@[simp] theorem State.setSlot_txqDrop (l : LinkNo) (i : SlotNo) (v : Slot) : (s.setSlot l i v).txqDrop = s.txqDrop := rfl
@[simp] theorem State.setSlot_fcsErr (l : LinkNo) (i : SlotNo) (v : Slot) : (s.setSlot l i v).fcsErr = s.fcsErr := rfl
@[simp] theorem State.setSlot_mruErr (l : LinkNo) (i : SlotNo) (v : Slot) : (s.setSlot l i v).mruErr = s.mruErr := rfl
@[simp] theorem State.setSlot_faultValid (l : LinkNo) (i : SlotNo) (v : Slot) : (s.setSlot l i v).faultValid = s.faultValid := rfl
@[simp] theorem State.setSlot_faultCode (l : LinkNo) (i : SlotNo) (v : Slot) : (s.setSlot l i v).faultCode = s.faultCode := rfl
@[simp] theorem State.setSlot_faultCmd (l : LinkNo) (i : SlotNo) (v : Slot) : (s.setSlot l i v).faultCmd = s.faultCmd := rfl
@[simp] theorem State.setSlot_pending (l : LinkNo) (i : SlotNo) (v : Slot) : (s.setSlot l i v).pending = s.pending := rfl
@[simp] theorem State.setSlot_issuer (l : LinkNo) (i : SlotNo) (v : Slot) : (s.setSlot l i v).issuer = s.issuer := rfl
@[simp] theorem State.setSlot_response (l : LinkNo) (i : SlotNo) (v : Slot) : (s.setSlot l i v).response = s.response := rfl
@[simp] theorem State.setSlot_draws (l : LinkNo) (i : SlotNo) (v : Slot) : (s.setSlot l i v).draws = s.draws := rfl

@[simp] theorem State.bumpRxqDrop_params : (s.bumpRxqDrop).params = s.params := rfl
@[simp] theorem State.bumpRxqDrop_links : (s.bumpRxqDrop).links = s.links := rfl
@[simp] theorem State.bumpRxqDrop_rxq : (s.bumpRxqDrop).rxq = s.rxq := rfl
@[simp] theorem State.bumpRxqDrop_txq : (s.bumpRxqDrop).txq = s.txq := rfl
@[simp] theorem State.bumpRxqDrop_rxqDrop : (s.bumpRxqDrop).rxqDrop = s.rxqDrop + 1 := rfl
@[simp] theorem State.bumpRxqDrop_txqDrop : (s.bumpRxqDrop).txqDrop = s.txqDrop := rfl
@[simp] theorem State.bumpRxqDrop_fcsErr : (s.bumpRxqDrop).fcsErr = s.fcsErr := rfl
@[simp] theorem State.bumpRxqDrop_mruErr : (s.bumpRxqDrop).mruErr = s.mruErr := rfl
@[simp] theorem State.bumpRxqDrop_faultValid : (s.bumpRxqDrop).faultValid = s.faultValid := rfl
@[simp] theorem State.bumpRxqDrop_faultCode : (s.bumpRxqDrop).faultCode = s.faultCode := rfl
@[simp] theorem State.bumpRxqDrop_faultCmd : (s.bumpRxqDrop).faultCmd = s.faultCmd := rfl
@[simp] theorem State.bumpRxqDrop_pending : (s.bumpRxqDrop).pending = s.pending := rfl
@[simp] theorem State.bumpRxqDrop_issuer : (s.bumpRxqDrop).issuer = s.issuer := rfl
@[simp] theorem State.bumpRxqDrop_response : (s.bumpRxqDrop).response = s.response := rfl
@[simp] theorem State.bumpRxqDrop_draws : (s.bumpRxqDrop).draws = s.draws := rfl
@[simp] theorem State.bumpRxqDrop_link (m : LinkNo) : (s.bumpRxqDrop).link m = s.link m := rfl

@[simp] theorem State.bumpTxqDrop_params : (s.bumpTxqDrop).params = s.params := rfl
@[simp] theorem State.bumpTxqDrop_links : (s.bumpTxqDrop).links = s.links := rfl
@[simp] theorem State.bumpTxqDrop_rxq : (s.bumpTxqDrop).rxq = s.rxq := rfl
@[simp] theorem State.bumpTxqDrop_txq : (s.bumpTxqDrop).txq = s.txq := rfl
@[simp] theorem State.bumpTxqDrop_rxqDrop : (s.bumpTxqDrop).rxqDrop = s.rxqDrop := rfl
@[simp] theorem State.bumpTxqDrop_txqDrop : (s.bumpTxqDrop).txqDrop = s.txqDrop + 1 := rfl
@[simp] theorem State.bumpTxqDrop_fcsErr : (s.bumpTxqDrop).fcsErr = s.fcsErr := rfl
@[simp] theorem State.bumpTxqDrop_mruErr : (s.bumpTxqDrop).mruErr = s.mruErr := rfl
@[simp] theorem State.bumpTxqDrop_faultValid : (s.bumpTxqDrop).faultValid = s.faultValid := rfl
@[simp] theorem State.bumpTxqDrop_faultCode : (s.bumpTxqDrop).faultCode = s.faultCode := rfl
@[simp] theorem State.bumpTxqDrop_faultCmd : (s.bumpTxqDrop).faultCmd = s.faultCmd := rfl
@[simp] theorem State.bumpTxqDrop_pending : (s.bumpTxqDrop).pending = s.pending := rfl
@[simp] theorem State.bumpTxqDrop_issuer : (s.bumpTxqDrop).issuer = s.issuer := rfl
@[simp] theorem State.bumpTxqDrop_response : (s.bumpTxqDrop).response = s.response := rfl
@[simp] theorem State.bumpTxqDrop_draws : (s.bumpTxqDrop).draws = s.draws := rfl
@[simp] theorem State.bumpTxqDrop_link (m : LinkNo) : (s.bumpTxqDrop).link m = s.link m := rfl

@[simp] theorem State.bumpFcsErr_params : (s.bumpFcsErr).params = s.params := rfl
@[simp] theorem State.bumpFcsErr_links : (s.bumpFcsErr).links = s.links := rfl
@[simp] theorem State.bumpFcsErr_rxq : (s.bumpFcsErr).rxq = s.rxq := rfl
@[simp] theorem State.bumpFcsErr_txq : (s.bumpFcsErr).txq = s.txq := rfl
@[simp] theorem State.bumpFcsErr_rxqDrop : (s.bumpFcsErr).rxqDrop = s.rxqDrop := rfl
@[simp] theorem State.bumpFcsErr_txqDrop : (s.bumpFcsErr).txqDrop = s.txqDrop := rfl
@[simp] theorem State.bumpFcsErr_fcsErr : (s.bumpFcsErr).fcsErr = s.fcsErr + 1 := rfl
@[simp] theorem State.bumpFcsErr_mruErr : (s.bumpFcsErr).mruErr = s.mruErr := rfl
@[simp] theorem State.bumpFcsErr_faultValid : (s.bumpFcsErr).faultValid = s.faultValid := rfl
@[simp] theorem State.bumpFcsErr_faultCode : (s.bumpFcsErr).faultCode = s.faultCode := rfl
@[simp] theorem State.bumpFcsErr_faultCmd : (s.bumpFcsErr).faultCmd = s.faultCmd := rfl
@[simp] theorem State.bumpFcsErr_pending : (s.bumpFcsErr).pending = s.pending := rfl
@[simp] theorem State.bumpFcsErr_issuer : (s.bumpFcsErr).issuer = s.issuer := rfl
@[simp] theorem State.bumpFcsErr_response : (s.bumpFcsErr).response = s.response := rfl
@[simp] theorem State.bumpFcsErr_draws : (s.bumpFcsErr).draws = s.draws := rfl
@[simp] theorem State.bumpFcsErr_link (m : LinkNo) : (s.bumpFcsErr).link m = s.link m := rfl

@[simp] theorem State.bumpMruErr_params : (s.bumpMruErr).params = s.params := rfl
@[simp] theorem State.bumpMruErr_links : (s.bumpMruErr).links = s.links := rfl
@[simp] theorem State.bumpMruErr_rxq : (s.bumpMruErr).rxq = s.rxq := rfl
@[simp] theorem State.bumpMruErr_txq : (s.bumpMruErr).txq = s.txq := rfl
@[simp] theorem State.bumpMruErr_rxqDrop : (s.bumpMruErr).rxqDrop = s.rxqDrop := rfl
@[simp] theorem State.bumpMruErr_txqDrop : (s.bumpMruErr).txqDrop = s.txqDrop := rfl
@[simp] theorem State.bumpMruErr_fcsErr : (s.bumpMruErr).fcsErr = s.fcsErr := rfl
@[simp] theorem State.bumpMruErr_mruErr : (s.bumpMruErr).mruErr = s.mruErr + 1 := rfl
@[simp] theorem State.bumpMruErr_faultValid : (s.bumpMruErr).faultValid = s.faultValid := rfl
@[simp] theorem State.bumpMruErr_faultCode : (s.bumpMruErr).faultCode = s.faultCode := rfl
@[simp] theorem State.bumpMruErr_faultCmd : (s.bumpMruErr).faultCmd = s.faultCmd := rfl
@[simp] theorem State.bumpMruErr_pending : (s.bumpMruErr).pending = s.pending := rfl
@[simp] theorem State.bumpMruErr_issuer : (s.bumpMruErr).issuer = s.issuer := rfl
@[simp] theorem State.bumpMruErr_response : (s.bumpMruErr).response = s.response := rfl
@[simp] theorem State.bumpMruErr_draws : (s.bumpMruErr).draws = s.draws := rfl
@[simp] theorem State.bumpMruErr_link (m : LinkNo) : (s.bumpMruErr).link m = s.link m := rfl

@[simp] theorem State.setRxq_params (q : List Descriptor) : (s.setRxq q).params = s.params := rfl
@[simp] theorem State.setRxq_links (q : List Descriptor) : (s.setRxq q).links = s.links := rfl
@[simp] theorem State.setRxq_rxq (q : List Descriptor) : (s.setRxq q).rxq = q := rfl
@[simp] theorem State.setRxq_txq (q : List Descriptor) : (s.setRxq q).txq = s.txq := rfl
@[simp] theorem State.setRxq_rxqDrop (q : List Descriptor) : (s.setRxq q).rxqDrop = s.rxqDrop := rfl
@[simp] theorem State.setRxq_txqDrop (q : List Descriptor) : (s.setRxq q).txqDrop = s.txqDrop := rfl
@[simp] theorem State.setRxq_fcsErr (q : List Descriptor) : (s.setRxq q).fcsErr = s.fcsErr := rfl
@[simp] theorem State.setRxq_mruErr (q : List Descriptor) : (s.setRxq q).mruErr = s.mruErr := rfl
@[simp] theorem State.setRxq_faultValid (q : List Descriptor) : (s.setRxq q).faultValid = s.faultValid := rfl
@[simp] theorem State.setRxq_faultCode (q : List Descriptor) : (s.setRxq q).faultCode = s.faultCode := rfl
@[simp] theorem State.setRxq_faultCmd (q : List Descriptor) : (s.setRxq q).faultCmd = s.faultCmd := rfl
@[simp] theorem State.setRxq_pending (q : List Descriptor) : (s.setRxq q).pending = s.pending := rfl
@[simp] theorem State.setRxq_issuer (q : List Descriptor) : (s.setRxq q).issuer = s.issuer := rfl
@[simp] theorem State.setRxq_response (q : List Descriptor) : (s.setRxq q).response = s.response := rfl
@[simp] theorem State.setRxq_draws (q : List Descriptor) : (s.setRxq q).draws = s.draws := rfl
@[simp] theorem State.setRxq_link (q : List Descriptor) (m : LinkNo) : (s.setRxq q).link m = s.link m := rfl

@[simp] theorem State.setTxq_params (q : List LinkNo) : (s.setTxq q).params = s.params := rfl
@[simp] theorem State.setTxq_links (q : List LinkNo) : (s.setTxq q).links = s.links := rfl
@[simp] theorem State.setTxq_rxq (q : List LinkNo) : (s.setTxq q).rxq = s.rxq := rfl
@[simp] theorem State.setTxq_txq (q : List LinkNo) : (s.setTxq q).txq = q := rfl
@[simp] theorem State.setTxq_rxqDrop (q : List LinkNo) : (s.setTxq q).rxqDrop = s.rxqDrop := rfl
@[simp] theorem State.setTxq_txqDrop (q : List LinkNo) : (s.setTxq q).txqDrop = s.txqDrop := rfl
@[simp] theorem State.setTxq_fcsErr (q : List LinkNo) : (s.setTxq q).fcsErr = s.fcsErr := rfl
@[simp] theorem State.setTxq_mruErr (q : List LinkNo) : (s.setTxq q).mruErr = s.mruErr := rfl
@[simp] theorem State.setTxq_faultValid (q : List LinkNo) : (s.setTxq q).faultValid = s.faultValid := rfl
@[simp] theorem State.setTxq_faultCode (q : List LinkNo) : (s.setTxq q).faultCode = s.faultCode := rfl
@[simp] theorem State.setTxq_faultCmd (q : List LinkNo) : (s.setTxq q).faultCmd = s.faultCmd := rfl
@[simp] theorem State.setTxq_pending (q : List LinkNo) : (s.setTxq q).pending = s.pending := rfl
@[simp] theorem State.setTxq_issuer (q : List LinkNo) : (s.setTxq q).issuer = s.issuer := rfl
@[simp] theorem State.setTxq_response (q : List LinkNo) : (s.setTxq q).response = s.response := rfl
@[simp] theorem State.setTxq_draws (q : List LinkNo) : (s.setTxq q).draws = s.draws := rfl
@[simp] theorem State.setTxq_link (q : List LinkNo) (m : LinkNo) : (s.setTxq q).link m = s.link m := rfl

@[simp] theorem State.pushRxq_params (d : Descriptor) : (s.pushRxq d).params = s.params := rfl
@[simp] theorem State.pushRxq_links (d : Descriptor) : (s.pushRxq d).links = s.links := rfl
@[simp] theorem State.pushRxq_rxq (d : Descriptor) : (s.pushRxq d).rxq = s.rxq ++ [d] := rfl
@[simp] theorem State.pushRxq_txq (d : Descriptor) : (s.pushRxq d).txq = s.txq := rfl
@[simp] theorem State.pushRxq_rxqDrop (d : Descriptor) : (s.pushRxq d).rxqDrop = s.rxqDrop := rfl
@[simp] theorem State.pushRxq_txqDrop (d : Descriptor) : (s.pushRxq d).txqDrop = s.txqDrop := rfl
@[simp] theorem State.pushRxq_fcsErr (d : Descriptor) : (s.pushRxq d).fcsErr = s.fcsErr := rfl
@[simp] theorem State.pushRxq_mruErr (d : Descriptor) : (s.pushRxq d).mruErr = s.mruErr := rfl
@[simp] theorem State.pushRxq_faultValid (d : Descriptor) : (s.pushRxq d).faultValid = s.faultValid := rfl
@[simp] theorem State.pushRxq_faultCode (d : Descriptor) : (s.pushRxq d).faultCode = s.faultCode := rfl
@[simp] theorem State.pushRxq_faultCmd (d : Descriptor) : (s.pushRxq d).faultCmd = s.faultCmd := rfl
@[simp] theorem State.pushRxq_pending (d : Descriptor) : (s.pushRxq d).pending = s.pending := rfl
@[simp] theorem State.pushRxq_issuer (d : Descriptor) : (s.pushRxq d).issuer = s.issuer := rfl
@[simp] theorem State.pushRxq_response (d : Descriptor) : (s.pushRxq d).response = s.response := rfl
@[simp] theorem State.pushRxq_draws (d : Descriptor) : (s.pushRxq d).draws = s.draws := rfl
@[simp] theorem State.pushRxq_link (d : Descriptor) (m : LinkNo) : (s.pushRxq d).link m = s.link m := rfl

@[simp] theorem State.pushTxq_params (l : LinkNo) : (s.pushTxq l).params = s.params := rfl
@[simp] theorem State.pushTxq_links (l : LinkNo) : (s.pushTxq l).links = s.links := rfl
@[simp] theorem State.pushTxq_rxq (l : LinkNo) : (s.pushTxq l).rxq = s.rxq := rfl
@[simp] theorem State.pushTxq_txq (l : LinkNo) : (s.pushTxq l).txq = s.txq ++ [l] := rfl
@[simp] theorem State.pushTxq_rxqDrop (l : LinkNo) : (s.pushTxq l).rxqDrop = s.rxqDrop := rfl
@[simp] theorem State.pushTxq_txqDrop (l : LinkNo) : (s.pushTxq l).txqDrop = s.txqDrop := rfl
@[simp] theorem State.pushTxq_fcsErr (l : LinkNo) : (s.pushTxq l).fcsErr = s.fcsErr := rfl
@[simp] theorem State.pushTxq_mruErr (l : LinkNo) : (s.pushTxq l).mruErr = s.mruErr := rfl
@[simp] theorem State.pushTxq_faultValid (l : LinkNo) : (s.pushTxq l).faultValid = s.faultValid := rfl
@[simp] theorem State.pushTxq_faultCode (l : LinkNo) : (s.pushTxq l).faultCode = s.faultCode := rfl
@[simp] theorem State.pushTxq_faultCmd (l : LinkNo) : (s.pushTxq l).faultCmd = s.faultCmd := rfl
@[simp] theorem State.pushTxq_pending (l : LinkNo) : (s.pushTxq l).pending = s.pending := rfl
@[simp] theorem State.pushTxq_issuer (l : LinkNo) : (s.pushTxq l).issuer = s.issuer := rfl
@[simp] theorem State.pushTxq_response (l : LinkNo) : (s.pushTxq l).response = s.response := rfl
@[simp] theorem State.pushTxq_draws (l : LinkNo) : (s.pushTxq l).draws = s.draws := rfl
@[simp] theorem State.pushTxq_link (l : LinkNo) (m : LinkNo) : (s.pushTxq l).link m = s.link m := rfl

@[simp] theorem State.noReply_params : (s.noReply).params = s.params := rfl
@[simp] theorem State.noReply_links : (s.noReply).links = s.links := rfl
@[simp] theorem State.noReply_rxq : (s.noReply).rxq = s.rxq := rfl
@[simp] theorem State.noReply_txq : (s.noReply).txq = s.txq := rfl
@[simp] theorem State.noReply_rxqDrop : (s.noReply).rxqDrop = s.rxqDrop := rfl
@[simp] theorem State.noReply_txqDrop : (s.noReply).txqDrop = s.txqDrop := rfl
@[simp] theorem State.noReply_fcsErr : (s.noReply).fcsErr = s.fcsErr := rfl
@[simp] theorem State.noReply_mruErr : (s.noReply).mruErr = s.mruErr := rfl
@[simp] theorem State.noReply_faultValid : (s.noReply).faultValid = s.faultValid := rfl
@[simp] theorem State.noReply_faultCode : (s.noReply).faultCode = s.faultCode := rfl
@[simp] theorem State.noReply_faultCmd : (s.noReply).faultCmd = s.faultCmd := rfl
@[simp] theorem State.noReply_pending : (s.noReply).pending = s.pending := rfl
@[simp] theorem State.noReply_issuer : (s.noReply).issuer = s.issuer := rfl
@[simp] theorem State.noReply_response : (s.noReply).response = none := rfl
@[simp] theorem State.noReply_draws : (s.noReply).draws = s.draws := rfl
@[simp] theorem State.noReply_link (m : LinkNo) : (s.noReply).link m = s.link m := rfl

@[simp] theorem State.respond_params (v : Word) : (s.respond v).params = s.params := rfl
@[simp] theorem State.respond_links (v : Word) : (s.respond v).links = s.links := rfl
@[simp] theorem State.respond_rxq (v : Word) : (s.respond v).rxq = s.rxq := rfl
@[simp] theorem State.respond_txq (v : Word) : (s.respond v).txq = s.txq := rfl
@[simp] theorem State.respond_rxqDrop (v : Word) : (s.respond v).rxqDrop = s.rxqDrop := rfl
@[simp] theorem State.respond_txqDrop (v : Word) : (s.respond v).txqDrop = s.txqDrop := rfl
@[simp] theorem State.respond_fcsErr (v : Word) : (s.respond v).fcsErr = s.fcsErr := rfl
@[simp] theorem State.respond_mruErr (v : Word) : (s.respond v).mruErr = s.mruErr := rfl
@[simp] theorem State.respond_faultValid (v : Word) : (s.respond v).faultValid = s.faultValid := rfl
@[simp] theorem State.respond_faultCode (v : Word) : (s.respond v).faultCode = s.faultCode := rfl
@[simp] theorem State.respond_faultCmd (v : Word) : (s.respond v).faultCmd = s.faultCmd := rfl
@[simp] theorem State.respond_pending (v : Word) : (s.respond v).pending = s.pending := rfl
@[simp] theorem State.respond_issuer (v : Word) : (s.respond v).issuer = s.issuer := rfl
@[simp] theorem State.respond_response (v : Word) : (s.respond v).response = some { addressee := s.issuer, word := v } := rfl
@[simp] theorem State.respond_draws (v : Word) : (s.respond v).draws = s.draws := rfl
@[simp] theorem State.respond_link (v : Word) (m : LinkNo) : (s.respond v).link m = s.link m := rfl

@[simp] theorem State.latch_params (c : FaultCode) (w : Word) : (s.latch c w).params = s.params := rfl
@[simp] theorem State.latch_links (c : FaultCode) (w : Word) : (s.latch c w).links = s.links := rfl
@[simp] theorem State.latch_rxq (c : FaultCode) (w : Word) : (s.latch c w).rxq = s.rxq := rfl
@[simp] theorem State.latch_txq (c : FaultCode) (w : Word) : (s.latch c w).txq = s.txq := rfl
@[simp] theorem State.latch_rxqDrop (c : FaultCode) (w : Word) : (s.latch c w).rxqDrop = s.rxqDrop := rfl
@[simp] theorem State.latch_txqDrop (c : FaultCode) (w : Word) : (s.latch c w).txqDrop = s.txqDrop := rfl
@[simp] theorem State.latch_fcsErr (c : FaultCode) (w : Word) : (s.latch c w).fcsErr = s.fcsErr := rfl
@[simp] theorem State.latch_mruErr (c : FaultCode) (w : Word) : (s.latch c w).mruErr = s.mruErr := rfl
@[simp] theorem State.latch_faultValid (c : FaultCode) (w : Word) : (s.latch c w).faultValid = true := rfl
@[simp] theorem State.latch_faultCode (c : FaultCode) (w : Word) : (s.latch c w).faultCode = c.code := rfl
@[simp] theorem State.latch_faultCmd (c : FaultCode) (w : Word) : (s.latch c w).faultCmd = w := rfl
@[simp] theorem State.latch_pending (c : FaultCode) (w : Word) : (s.latch c w).pending = s.pending := rfl
@[simp] theorem State.latch_issuer (c : FaultCode) (w : Word) : (s.latch c w).issuer = s.issuer := rfl
@[simp] theorem State.latch_response (c : FaultCode) (w : Word) : (s.latch c w).response = s.response := rfl
@[simp] theorem State.latch_draws (c : FaultCode) (w : Word) : (s.latch c w).draws = s.draws := rfl
@[simp] theorem State.latch_link (c : FaultCode) (w : Word) (m : LinkNo) : (s.latch c w).link m = s.link m := rfl

@[simp] theorem State.takeFault_params (c : FaultCode) (w : Word) : (s.takeFault c w).params = s.params := rfl
@[simp] theorem State.takeFault_links (c : FaultCode) (w : Word) : (s.takeFault c w).links = s.links := rfl
@[simp] theorem State.takeFault_rxq (c : FaultCode) (w : Word) : (s.takeFault c w).rxq = s.rxq := rfl
@[simp] theorem State.takeFault_txq (c : FaultCode) (w : Word) : (s.takeFault c w).txq = s.txq := rfl
@[simp] theorem State.takeFault_rxqDrop (c : FaultCode) (w : Word) : (s.takeFault c w).rxqDrop = s.rxqDrop := rfl
@[simp] theorem State.takeFault_txqDrop (c : FaultCode) (w : Word) : (s.takeFault c w).txqDrop = s.txqDrop := rfl
@[simp] theorem State.takeFault_fcsErr (c : FaultCode) (w : Word) : (s.takeFault c w).fcsErr = s.fcsErr := rfl
@[simp] theorem State.takeFault_mruErr (c : FaultCode) (w : Word) : (s.takeFault c w).mruErr = s.mruErr := rfl
@[simp] theorem State.takeFault_faultValid (c : FaultCode) (w : Word) : (s.takeFault c w).faultValid = true := rfl
@[simp] theorem State.takeFault_faultCode (c : FaultCode) (w : Word) : (s.takeFault c w).faultCode = c.code := rfl
@[simp] theorem State.takeFault_faultCmd (c : FaultCode) (w : Word) : (s.takeFault c w).faultCmd = w := rfl
@[simp] theorem State.takeFault_pending (c : FaultCode) (w : Word) : (s.takeFault c w).pending = s.pending := rfl
@[simp] theorem State.takeFault_issuer (c : FaultCode) (w : Word) : (s.takeFault c w).issuer = s.issuer := rfl
@[simp] theorem State.takeFault_response (c : FaultCode) (w : Word) : (s.takeFault c w).response = none := rfl
@[simp] theorem State.takeFault_draws (c : FaultCode) (w : Word) : (s.takeFault c w).draws = s.draws := rfl
@[simp] theorem State.takeFault_link (c : FaultCode) (w : Word) (m : LinkNo) : (s.takeFault c w).link m = s.link m := rfl

@[simp] theorem State.setPending_params (e : List Event) : (s.setPending e).params = s.params := rfl
@[simp] theorem State.setPending_links (e : List Event) : (s.setPending e).links = s.links := rfl
@[simp] theorem State.setPending_rxq (e : List Event) : (s.setPending e).rxq = s.rxq := rfl
@[simp] theorem State.setPending_txq (e : List Event) : (s.setPending e).txq = s.txq := rfl
@[simp] theorem State.setPending_rxqDrop (e : List Event) : (s.setPending e).rxqDrop = s.rxqDrop := rfl
@[simp] theorem State.setPending_txqDrop (e : List Event) : (s.setPending e).txqDrop = s.txqDrop := rfl
@[simp] theorem State.setPending_fcsErr (e : List Event) : (s.setPending e).fcsErr = s.fcsErr := rfl
@[simp] theorem State.setPending_mruErr (e : List Event) : (s.setPending e).mruErr = s.mruErr := rfl
@[simp] theorem State.setPending_faultValid (e : List Event) : (s.setPending e).faultValid = s.faultValid := rfl
@[simp] theorem State.setPending_faultCode (e : List Event) : (s.setPending e).faultCode = s.faultCode := rfl
@[simp] theorem State.setPending_faultCmd (e : List Event) : (s.setPending e).faultCmd = s.faultCmd := rfl
@[simp] theorem State.setPending_pending (e : List Event) : (s.setPending e).pending = e := rfl
@[simp] theorem State.setPending_issuer (e : List Event) : (s.setPending e).issuer = s.issuer := rfl
@[simp] theorem State.setPending_response (e : List Event) : (s.setPending e).response = s.response := rfl
@[simp] theorem State.setPending_draws (e : List Event) : (s.setPending e).draws = s.draws := rfl
@[simp] theorem State.setPending_link (e : List Event) (m : LinkNo) : (s.setPending e).link m = s.link m := rfl

@[simp] theorem State.accept_params (a : Agent) (rest : List Event) : (s.accept a rest).params = s.params := rfl
@[simp] theorem State.accept_links (a : Agent) (rest : List Event) : (s.accept a rest).links = s.links := rfl
@[simp] theorem State.accept_rxq (a : Agent) (rest : List Event) : (s.accept a rest).rxq = s.rxq := rfl
@[simp] theorem State.accept_txq (a : Agent) (rest : List Event) : (s.accept a rest).txq = s.txq := rfl
@[simp] theorem State.accept_rxqDrop (a : Agent) (rest : List Event) : (s.accept a rest).rxqDrop = s.rxqDrop := rfl
@[simp] theorem State.accept_txqDrop (a : Agent) (rest : List Event) : (s.accept a rest).txqDrop = s.txqDrop := rfl
@[simp] theorem State.accept_fcsErr (a : Agent) (rest : List Event) : (s.accept a rest).fcsErr = s.fcsErr := rfl
@[simp] theorem State.accept_mruErr (a : Agent) (rest : List Event) : (s.accept a rest).mruErr = s.mruErr := rfl
@[simp] theorem State.accept_faultValid (a : Agent) (rest : List Event) : (s.accept a rest).faultValid = s.faultValid := rfl
@[simp] theorem State.accept_faultCode (a : Agent) (rest : List Event) : (s.accept a rest).faultCode = s.faultCode := rfl
@[simp] theorem State.accept_faultCmd (a : Agent) (rest : List Event) : (s.accept a rest).faultCmd = s.faultCmd := rfl
@[simp] theorem State.accept_pending (a : Agent) (rest : List Event) : (s.accept a rest).pending = rest := rfl
@[simp] theorem State.accept_issuer (a : Agent) (rest : List Event) : (s.accept a rest).issuer = a := rfl
@[simp] theorem State.accept_response (a : Agent) (rest : List Event) : (s.accept a rest).response = s.response := rfl
@[simp] theorem State.accept_draws (a : Agent) (rest : List Event) : (s.accept a rest).draws = s.draws := rfl
@[simp] theorem State.accept_link (a : Agent) (rest : List Event) (m : LinkNo) : (s.accept a rest).link m = s.link m := rfl

@[simp] theorem State.drew_params : (s.drew).params = s.params := rfl
@[simp] theorem State.drew_links : (s.drew).links = s.links := rfl
@[simp] theorem State.drew_rxq : (s.drew).rxq = s.rxq := rfl
@[simp] theorem State.drew_txq : (s.drew).txq = s.txq := rfl
@[simp] theorem State.drew_rxqDrop : (s.drew).rxqDrop = s.rxqDrop := rfl
@[simp] theorem State.drew_txqDrop : (s.drew).txqDrop = s.txqDrop := rfl
@[simp] theorem State.drew_fcsErr : (s.drew).fcsErr = s.fcsErr := rfl
@[simp] theorem State.drew_mruErr : (s.drew).mruErr = s.mruErr := rfl
@[simp] theorem State.drew_faultValid : (s.drew).faultValid = s.faultValid := rfl
@[simp] theorem State.drew_faultCode : (s.drew).faultCode = s.faultCode := rfl
@[simp] theorem State.drew_faultCmd : (s.drew).faultCmd = s.faultCmd := rfl
@[simp] theorem State.drew_pending : (s.drew).pending = s.pending := rfl
@[simp] theorem State.drew_issuer : (s.drew).issuer = s.issuer := rfl
@[simp] theorem State.drew_response : (s.drew).response = s.response := rfl
@[simp] theorem State.drew_draws : (s.drew).draws = s.draws + 1 := rfl
@[simp] theorem State.drew_link (m : LinkNo) : (s.drew).link m = s.link m := rfl

@[simp] theorem State.applyReset_params : (s.applyReset).params = s.params := rfl
@[simp] theorem State.applyReset_links : (s.applyReset).links = List.replicate s.params.nLinks (Link.atReset s.params.nSlots) := rfl
@[simp] theorem State.applyReset_rxq : (s.applyReset).rxq = [] := rfl
@[simp] theorem State.applyReset_txq : (s.applyReset).txq = [] := rfl
@[simp] theorem State.applyReset_rxqDrop : (s.applyReset).rxqDrop = 0 := rfl
@[simp] theorem State.applyReset_txqDrop : (s.applyReset).txqDrop = 0 := rfl
@[simp] theorem State.applyReset_fcsErr : (s.applyReset).fcsErr = 0 := rfl
@[simp] theorem State.applyReset_mruErr : (s.applyReset).mruErr = 0 := rfl
@[simp] theorem State.applyReset_faultValid : (s.applyReset).faultValid = false := rfl
@[simp] theorem State.applyReset_faultCode : (s.applyReset).faultCode = 0 := rfl
@[simp] theorem State.applyReset_faultCmd : (s.applyReset).faultCmd = 0 := rfl
@[simp] theorem State.applyReset_pending : (s.applyReset).pending = s.pending := rfl
@[simp] theorem State.applyReset_issuer : (s.applyReset).issuer = s.issuer := rfl
@[simp] theorem State.applyReset_response : (s.applyReset).response = none := rfl
@[simp] theorem State.applyReset_draws : (s.applyReset).draws = s.draws := rfl

end StateFields

section LinkFields
variable (k : Link)

@[simp] theorem Link.setSlot_esc (i : SlotNo) (v : Slot) : (k.setSlot i v).esc = k.esc := rfl
@[simp] theorem Link.setSlot_cnt (i : SlotNo) (v : Slot) : (k.setSlot i v).cnt = k.cnt := rfl
@[simp] theorem Link.setSlot_act (i : SlotNo) (v : Slot) : (k.setSlot i v).act = k.act := rfl
@[simp] theorem Link.setSlot_slots (i : SlotNo) (v : Slot) : (k.setSlot i v).slots = k.slots.set i.toNat v := rfl
@[simp] theorem Link.setSlot_txo (i : SlotNo) (v : Slot) : (k.setSlot i v).txo = k.txo := rfl
@[simp] theorem Link.setSlot_fcs (i : SlotNo) (v : Slot) : (k.setSlot i v).fcs = k.fcs := rfl
@[simp] theorem Link.setSlot_txm (i : SlotNo) (v : Slot) : (k.setSlot i v).txm = k.txm := rfl
@[simp] theorem Link.setSlot_arm (i : SlotNo) (v : Slot) : (k.setSlot i v).arm = k.arm := rfl
@[simp] theorem Link.setSlot_ring (i : SlotNo) (v : Slot) : (k.setSlot i v).ring = k.ring := rfl
@[simp] theorem Link.setSlot_accmRx (i : SlotNo) (v : Slot) : (k.setSlot i v).accmRx = k.accmRx := rfl
@[simp] theorem Link.setSlot_accmTx (i : SlotNo) (v : Slot) : (k.setSlot i v).accmTx = k.accmTx := rfl
@[simp] theorem Link.setSlot_maxRx (i : SlotNo) (v : Slot) : (k.setSlot i v).maxRx = k.maxRx := rfl
@[simp] theorem Link.setSlot_mru (i : SlotNo) (v : Slot) : (k.setSlot i v).mru = k.mru := rfl
@[simp] theorem Link.setSlot_txMode (i : SlotNo) (v : Slot) : (k.setSlot i v).txMode = k.txMode := rfl
@[simp] theorem Link.setSlot_wire (i : SlotNo) (v : Slot) : (k.setSlot i v).wire = k.wire := rfl

@[simp] theorem Link.countByte_esc : (k.countByte).esc = k.esc := rfl
@[simp] theorem Link.countByte_cnt : (k.countByte).cnt = sat16 (k.cnt.toNat + 1) := rfl
@[simp] theorem Link.countByte_act : (k.countByte).act = k.act := rfl
@[simp] theorem Link.countByte_slots : (k.countByte).slots = k.slots := rfl
@[simp] theorem Link.countByte_txo : (k.countByte).txo = k.txo := rfl
@[simp] theorem Link.countByte_fcs : (k.countByte).fcs = k.fcs := rfl
@[simp] theorem Link.countByte_txm : (k.countByte).txm = k.txm := rfl
@[simp] theorem Link.countByte_arm : (k.countByte).arm = k.arm := rfl
@[simp] theorem Link.countByte_ring : (k.countByte).ring = k.ring := rfl
@[simp] theorem Link.countByte_accmRx : (k.countByte).accmRx = k.accmRx := rfl
@[simp] theorem Link.countByte_accmTx : (k.countByte).accmTx = k.accmTx := rfl
@[simp] theorem Link.countByte_maxRx : (k.countByte).maxRx = k.maxRx := rfl
@[simp] theorem Link.countByte_mru : (k.countByte).mru = k.mru := rfl
@[simp] theorem Link.countByte_txMode : (k.countByte).txMode = k.txMode := rfl
@[simp] theorem Link.countByte_wire : (k.countByte).wire = k.wire := rfl

@[simp] theorem Link.nextFrame_esc (n : Nat) : (k.nextFrame n).esc = k.esc := rfl
@[simp] theorem Link.nextFrame_cnt (n : Nat) : (k.nextFrame n).cnt = 0 := rfl
@[simp] theorem Link.nextFrame_act (n : Nat) : (k.nextFrame n).act = BitVec.ofNat 4 ((k.act.toNat + 1) % n) := rfl
@[simp] theorem Link.nextFrame_slots (n : Nat) : (k.nextFrame n).slots = k.slots := rfl
@[simp] theorem Link.nextFrame_txo (n : Nat) : (k.nextFrame n).txo = k.txo := rfl
@[simp] theorem Link.nextFrame_fcs (n : Nat) : (k.nextFrame n).fcs = k.fcs := rfl
@[simp] theorem Link.nextFrame_txm (n : Nat) : (k.nextFrame n).txm = k.txm := rfl
@[simp] theorem Link.nextFrame_arm (n : Nat) : (k.nextFrame n).arm = k.arm := rfl
@[simp] theorem Link.nextFrame_ring (n : Nat) : (k.nextFrame n).ring = k.ring := rfl
@[simp] theorem Link.nextFrame_accmRx (n : Nat) : (k.nextFrame n).accmRx = k.accmRx := rfl
@[simp] theorem Link.nextFrame_accmTx (n : Nat) : (k.nextFrame n).accmTx = k.accmTx := rfl
@[simp] theorem Link.nextFrame_maxRx (n : Nat) : (k.nextFrame n).maxRx = k.maxRx := rfl
@[simp] theorem Link.nextFrame_mru (n : Nat) : (k.nextFrame n).mru = k.mru := rfl
@[simp] theorem Link.nextFrame_txMode (n : Nat) : (k.nextFrame n).txMode = k.txMode := rfl
@[simp] theorem Link.nextFrame_wire (n : Nat) : (k.nextFrame n).wire = k.wire := rfl

@[simp] theorem Link.reinit_esc : (k.reinit).esc = false := rfl
@[simp] theorem Link.reinit_cnt : (k.reinit).cnt = 0 := rfl
@[simp] theorem Link.reinit_act : (k.reinit).act = 0 := rfl
@[simp] theorem Link.reinit_slots : (k.reinit).slots = k.slots.map Slot.emptied := rfl
@[simp] theorem Link.reinit_txo : (k.reinit).txo = k.txo := rfl
@[simp] theorem Link.reinit_fcs : (k.reinit).fcs = fcsSeed := rfl
@[simp] theorem Link.reinit_txm : (k.reinit).txm = false := rfl
@[simp] theorem Link.reinit_arm : (k.reinit).arm = k.arm := rfl
@[simp] theorem Link.reinit_ring : (k.reinit).ring = k.ring := rfl
@[simp] theorem Link.reinit_accmRx : (k.reinit).accmRx = k.accmRx := rfl
@[simp] theorem Link.reinit_accmTx : (k.reinit).accmTx = k.accmTx := rfl
@[simp] theorem Link.reinit_maxRx : (k.reinit).maxRx = k.maxRx := rfl
@[simp] theorem Link.reinit_mru : (k.reinit).mru = k.mru := rfl
@[simp] theorem Link.reinit_txMode : (k.reinit).txMode = k.txMode := rfl
@[simp] theorem Link.reinit_wire : (k.reinit).wire = k.wire := rfl

end LinkFields

section SlotFields

@[simp] theorem Slot.emptied_own (v : Slot) : v.emptied.own = v.own := rfl
@[simp] theorem Slot.emptied_len (v : Slot) : v.emptied.len = 0 := rfl
@[simp] theorem Slot.emptied_fill (v : Slot) : v.emptied.fill = 0 := rfl
@[simp] theorem Slot.emptied_data (v : Slot) : v.emptied.data = v.data := rfl
@[simp] theorem Link.completed_own (k : Link) : k.completed.own = .queued := rfl
@[simp] theorem Link.completed_len (k : Link) : k.completed.len = k.cnt := rfl
@[simp] theorem Link.completed_fill (k : Link) : k.completed.fill = (k.slot k.act).fill := rfl
@[simp] theorem Link.completed_data (k : Link) : k.completed.data = (k.slot k.act).data := rfl
@[simp] theorem Link.stored_own (k : Link) (d : Byte) : (k.stored d).own = (k.slot k.act).own := rfl
@[simp] theorem Link.stored_len (k : Link) (d : Byte) : (k.stored d).len = (k.slot k.act).len := rfl
@[simp] theorem Link.stored_fill (k : Link) (d : Byte) : (k.stored d).fill = (k.slot k.act).fill + 1 := rfl
@[simp] theorem Link.stored_data (k : Link) (d : Byte) : (k.stored d).data = (k.slot k.act).data.write k.cnt.toNat d := rfl

end SlotFields

end Sys2Proof.Machine
end

