-- ==== Sys2Proof/Laws/Storage.lean ====
section
/-! SUPPORT. The storage operations, each with the one lemma that says what it does: slot bytes, slots, links. -/

namespace Sys2Proof.Machine

/-! ### Slot bytes -/

@[simp] theorem Memory.read_nil (i : Nat) : Memory.read [] i = none := rfl

theorem Memory.read_cons (c : Host.Cell) (m : Memory) (i : Nat) :
    Memory.read (c :: m) i = if c.1 = i then some c.2 else Memory.read m i := rfl

theorem Memory.read_eq_none_of_lt {m : Memory} {i : Nat} (h : ∀ c ∈ m, i < c.1) : m.read i = none := by
  induction m with
  | nil => rfl
  | cons c m ih =>
    have hc := h c (by simp)
    rw [Memory.read_cons, if_neg (by omega)]
    exact ih fun d hd => h d (by simp [hd])

theorem Memory.read_write (m : Memory) (i j : Nat) (v : Byte) :
    (m.write i v).read j = if i = j then some v else m.read j := by
  induction m with
  | nil => simp [Memory.write, Memory.read_cons]
  | cons c m ih =>
    simp only [Memory.write]
    split
    · simp [Memory.read_cons]
    · split
      · next h =>
        subst h
        by_cases hj : c.1 = j <;> simp [Memory.read_cons, hj]
      · next h =>
        simp only [Memory.read_cons, ih]
        by_cases hj : c.1 = j
        · rw [if_pos hj, if_neg (by omega), if_pos hj]
        · rw [if_neg hj, if_neg hj]

theorem Memory.read_write_same (m : Memory) (i : Nat) (v : Byte) : (m.write i v).read i = some v := by
  simp [Memory.read_write]

theorem Memory.read_write_other (m : Memory) {i j : Nat} (v : Byte) (h : i ≠ j) :
    (m.write i v).read j = m.read j := by
  simp [Memory.read_write, h]

theorem Memory.mem_write {m : Memory} {i : Nat} {v : Byte} {c : Host.Cell} (h : c ∈ m.write i v) :
    c = (i, v) ∨ c ∈ m := by
  induction m with
  | nil => simpa [Memory.write] using h
  | cons d m ih =>
    simp only [Memory.write] at h
    split at h
    · simpa using h
    · split at h
      · rcases List.mem_cons.mp h with h | h
        · exact .inl h
        · exact .inr (by simp [h])
      · rcases List.mem_cons.mp h with h | h
        · exact .inr (by simp [h])
        · rcases ih h with h | h
          · exact .inl h
          · exact .inr (by simp [h])

/-- A write keeps the canonical form. -/
theorem Memory.write_wf {m : Memory} (h : m.wf) (i : Nat) (v : Byte) : (m.write i v).wf := by
  induction m with
  | nil => simp [Memory.write]
  | cons c m ih =>
    obtain ⟨hc, hm⟩ := List.pairwise_cons.mp h
    simp only [Memory.write]
    split
    · next hi =>
      refine List.pairwise_cons.mpr ⟨fun d hd => ?_, h⟩
      rcases List.mem_cons.mp hd with rfl | hd
      · exact hi
      · exact Nat.lt_trans hi (hc d hd)
    · split
      · next hi => exact List.pairwise_cons.mpr ⟨fun d hd => hi ▸ hc d hd, hm⟩
      · next h1 h2 =>
        refine List.pairwise_cons.mpr ⟨fun d hd => ?_, ih hm⟩
        rcases Memory.mem_write hd with rfl | hd
        · show c.1 < i; omega
        · exact hc d hd

theorem Memory.nil_wf : Memory.wf [] := List.Pairwise.nil

/-- Every slot's storage after reset is in canonical form, for any parameters. -/
theorem State.resetWith_data_wf (p : Params) : ∀ k ∈ (State.resetWith p).links, ∀ v ∈ k.slots, v.data.wf := by
  intro k hk v hv
  obtain ⟨-, rfl⟩ := List.mem_replicate.mp hk
  obtain ⟨-, rfl⟩ := List.mem_replicate.mp hv
  exact Memory.nil_wf

/-- The bytes read one after another are the reads of the single bytes. -/
theorem Memory.bytesFrom_eq_some {m : Memory} {n : Nat} : ∀ {i : Nat} {bs : List Byte},
    m.bytesFrom i n = some bs ↔ bs.length = n ∧ ∀ j (h : j < bs.length), m.read (i + j) = some bs[j] := by
  induction n with
  | zero => intro i bs; cases bs <;> simp [Memory.bytesFrom]
  | succ n ih =>
    intro i bs
    cases bs with
    | nil =>
      simp only [Memory.bytesFrom]
      cases m.read i <;> cases Memory.bytesFrom m (i + 1) n <;> simp
    | cons b bs =>
      have key : m.bytesFrom i (n + 1) = some (b :: bs) ↔
          m.read i = some b ∧ m.bytesFrom (i + 1) n = some bs := by
        simp only [Memory.bytesFrom]
        cases m.read i <;> cases Memory.bytesFrom m (i + 1) n <;> simp
      rw [key, ih]
      constructor
      · rintro ⟨h0, hl, h⟩
        refine ⟨by simp [hl], fun j hj => ?_⟩
        cases j with
        | zero => simpa using h0
        | succ j =>
          have := h j (by simpa using hj)
          simpa [Nat.add_assoc, Nat.add_comm 1 j] using this
      · rintro ⟨hl, h⟩
        refine ⟨by have := h 0 (by simp); simpa only [Nat.add_zero, List.getElem_cons_zero] using this,
          by simpa using hl, fun j hj => ?_⟩
        have := h (j + 1) (by simpa using hj)
        simpa [Nat.add_assoc, Nat.add_comm 1 j] using this

theorem Memory.bytes_eq_some {m : Memory} {n : Nat} {bs : List Byte} :
    m.bytes n = some bs ↔ bs.length = n ∧ ∀ j (h : j < bs.length), m.read j = some bs[j] := by
  simp [Memory.bytes, Memory.bytesFrom_eq_some]

/-- A prefix that is written can be read. -/
theorem Memory.bytes_isSome {m : Memory} {n : Nat} (h : ∀ j < n, m.read j ≠ none) : ∃ bs, m.bytes n = some bs := by
  suffices ∀ i, (∀ j < n, m.read (i + j) ≠ none) → ∃ bs, m.bytesFrom i n = some bs from
    this 0 (by simpa using h)
  clear h
  induction n with
  | zero => intro i _; exact ⟨[], rfl⟩
  | succ n ih =>
    intro i h
    obtain ⟨b, hb⟩ := Option.ne_none_iff_exists'.mp (h 0 (by omega))
    obtain ⟨bs, hbs⟩ := ih (i + 1) fun j hj => by
      have := h (j + 1) (by omega)
      rwa [Nat.add_assoc, Nat.add_comm 1 j]
    exact ⟨b :: bs, by simp only [Nat.add_zero] at hb; simp [Memory.bytesFrom, hb, hbs]⟩

/-! ### Links -/

theorem State.link_setLink_same {s : State} {l : LinkNo} (k : Link) (h : l.toNat < s.links.length) :
    (s.setLink l k).link l = k := by
  simp [State.link, h]

theorem State.link_setLink_other (s : State) {l m : LinkNo} (k : Link) (h : m ≠ l) :
    (s.setLink l k).link m = s.link m := by
  have : l.toNat ≠ m.toNat := fun e => h (BitVec.eq_of_toNat_eq e.symm)
  simp [State.link, List.getD, this]

theorem State.setLink_setLink (s : State) (l : LinkNo) (k k' : Link) :
    (s.setLink l k).setLink l k' = s.setLink l k' := by
  simp [State.setLink]

theorem State.setLink_comm (s : State) {l m : LinkNo} (k k' : Link) (h : l ≠ m) :
    (s.setLink l k).setLink m k' = (s.setLink m k').setLink l k := by
  have : l.toNat ≠ m.toNat := fun e => h (BitVec.eq_of_toNat_eq e)
  simp [State.setLink, List.set_comm _ _ this]

/-- In a well-shaped state an existing link is in the list. -/
theorem State.link_mem {s : State} (hs : s.Shape) {l : LinkNo} (h : l.toNat < s.params.nLinks) :
    s.link l ∈ s.links := by
  have hl : l.toNat < s.links.length := hs.2.1 ▸ h
  simp [State.link, List.getD, List.getElem?_eq_getElem hl]

theorem State.lt_links_length {s : State} (hs : s.Shape) {l : LinkNo} (h : l.toNat < s.params.nLinks) :
    l.toNat < s.links.length := hs.2.1 ▸ h

/-- What a property of every link needs for the link list with one link replaced. -/
theorem State.forall_links_setLink {s : State} {P : Link → Prop} (h : ∀ k ∈ s.links, P k) (l : LinkNo) {k : Link}
    (hk : P k) : ∀ k' ∈ (s.setLink l k).links, P k' := by
  intro k' hk'
  rcases List.mem_or_eq_of_mem_set (by simpa using hk') with h' | rfl
  · exact h k' h'
  · exact hk

/-! ### Slots -/

theorem Link.slot_setSlot_same {k : Link} {i : SlotNo} (v : Slot) (h : i.toNat < k.slots.length) :
    (k.setSlot i v).slot i = v := by
  simp [Link.slot, h]

theorem Link.slot_setSlot_other (k : Link) {i j : SlotNo} (v : Slot) (h : j ≠ i) :
    (k.setSlot i v).slot j = k.slot j := by
  have : i.toNat ≠ j.toNat := fun e => h (BitVec.eq_of_toNat_eq e.symm)
  simp [Link.slot, List.getD, this]

theorem Link.slot_mem {k : Link} {i : SlotNo} (h : i.toNat < k.slots.length) : k.slot i ∈ k.slots := by
  simp [Link.slot, List.getD, List.getElem?_eq_getElem h]

theorem Link.slot_countByte (k : Link) (i : SlotNo) : k.countByte.slot i = k.slot i := rfl

theorem Link.slot_nextFrame (k : Link) (n : Nat) (i : SlotNo) : (k.nextFrame n).slot i = k.slot i := rfl

theorem Link.slots_length_setSlot (k : Link) (i : SlotNo) (v : Slot) :
    (k.setSlot i v).slots.length = k.slots.length := by
  simp

end Sys2Proof.Machine
end

