-- ==== Sys2Proof/Laws/Command.lean ====
section
/-! SUPPORT. What a command's atomic step can end in, and one lemma per shared operation: the operand checks, the
emit, the acceptance of a data byte, the completion of a frame, the DRAIN step. -/

namespace Sys2Proof.Machine

/-! ### The end of a command (`60_exceptions.md` R270) -/

theorem State.command_halted {s : State} (h : s.faultValid = true) (i : Instr) (body : Result) :
    s.command i body = .next s.noReply := by
  simp [State.command, h]

theorem State.command_running {s : State} (h : s.Running) (i : Instr) (body : Result) :
    s.command i body = s.finish i body := by
  have h : s.faultValid = false := h
  simp [State.command, h]

@[simp] theorem State.finish_done (s t : State) (i : Instr) : s.finish i (.done t) = .next t.noReply := rfl
@[simp] theorem State.finish_reply (s t : State) (i : Instr) (v : Word) :
    s.finish i (.reply t v) = .next (t.respond v) := rfl
@[simp] theorem State.finish_raise (s : State) (i : Instr) (c : FaultCode) :
    s.finish i (.raise c) = .next (s.takeFault c (encode i)) := rfl
@[simp] theorem State.finish_stop (s : State) (i : Instr) (r : Fault) : s.finish i (.stop r) = .fault r := rfl

/-- Everything a command can end in when it answers a next state. -/
theorem State.command_cases {s t : State} {i : Instr} {body : Result} (h : s.command i body = .next t) :
    (s.faultValid = true ∧ t = s.noReply) ∨
    (s.faultValid = false ∧
      ((∃ u, body = .done u ∧ t = u.noReply) ∨ (∃ u v, body = .reply u v ∧ t = u.respond v) ∨
        ∃ c, body = .raise c ∧ t = s.takeFault c (encode i))) := by
  unfold State.command at h
  split at h
  · next hv => exact .inl ⟨hv, by injection h with h; exact h.symm⟩
  · next hv =>
    refine .inr ⟨by simpa using hv, ?_⟩
    cases body with
    | done u => exact .inl ⟨u, rfl, by injection h with h; exact h.symm⟩
    | reply u v => exact .inr (.inl ⟨u, v, rfl, by injection h with h; exact h.symm⟩)
    | raise c => exact .inr (.inr ⟨c, rfl, by injection h with h; exact h.symm⟩)
    | stop r => exact absurd h (by simp [State.finish])

/-! ### The operand checks (`60_exceptions.md` R272) -/

theorem State.onLink_bad {s : State} {l : LinkNo} (h : s.params.nLinks ≤ l.toNat) (body : Link → Result) :
    s.onLink l body = .raise .badLink := by
  simp [State.onLink, h]

theorem State.onLink_ok {s : State} {l : LinkNo} (h : l.toNat < s.params.nLinks) (body : Link → Result) :
    s.onLink l body = body (s.link l) := by
  simp [State.onLink, Nat.not_le.mpr h]

theorem State.onHeldSlot_badLink {s : State} {l : LinkNo} {i : SlotNo} (h : s.params.nLinks ≤ l.toNat)
    (body : Link → Slot → Result) : s.onHeldSlot l i body = .raise .badLink :=
  State.onLink_bad h _

theorem State.onHeldSlot_badSlot {s : State} {l : LinkNo} {i : SlotNo} (h : l.toNat < s.params.nLinks)
    (hi : s.params.nSlots ≤ i.toNat) (body : Link → Slot → Result) : s.onHeldSlot l i body = .raise .badSlot := by
  simp [State.onHeldSlot, State.onLink_ok h, hi]

theorem State.onHeldSlot_notOwned {s : State} {l : LinkNo} {i : SlotNo} (h : l.toNat < s.params.nLinks)
    (hi : i.toNat < s.params.nSlots) (ho : ((s.link l).slot i).own ≠ .held) (body : Link → Slot → Result) :
    s.onHeldSlot l i body = .raise .slotNotOwned := by
  simp [State.onHeldSlot, State.onLink_ok h, Nat.not_le.mpr hi, ho]

theorem State.onHeldSlot_ok {s : State} {l : LinkNo} {i : SlotNo} (h : l.toNat < s.params.nLinks)
    (hi : i.toNat < s.params.nSlots) (ho : ((s.link l).slot i).own = .held) (body : Link → Slot → Result) :
    s.onHeldSlot l i body = body (s.link l) ((s.link l).slot i) := by
  simp [State.onHeldSlot, State.onLink_ok h, Nat.not_le.mpr hi, ho]

theorem cfgWriteCheck_eq (r : RegSel) (body : Result) :
    cfgWriteCheck r body = if r.toNat < 5 then body else .raise .illegalCommand := by
  unfold cfgWriteCheck
  split
  · rw [if_neg (by omega)]
  · split
    · rw [if_neg (by omega)]
    · rw [if_pos (by omega)]

theorem cfgReadCheck_eq (r : RegSel) (body : Result) :
    cfgReadCheck r body = if r.toNat < 7 then body else .raise .illegalCommand := by
  unfold cfgReadCheck
  split
  · rw [if_neg (by omega)]
  · rw [if_pos (by omega)]

theorem strdCheck_eq (r : RegSel) (body : Result) :
    strdCheck r body = if r.toNat < 6 then body else .raise .illegalCommand := by
  unfold strdCheck
  split
  · rw [if_neg (by omega)]
  · rw [if_pos (by omega)]

/-! ### Emit (`42_transmit.md` R171) -/

theorem Link.emit_polled {k : Link} (h : k.txm = false) (cap : Nat) (seq : List Byte) :
    k.emit cap seq = some { k with wire := k.wire ++ seq } := by
  simp [Link.emit, h]

theorem Link.emit_fits {k : Link} {cap : Nat} {seq : List Byte} (h : k.txm = true)
    (hf : k.ring.length + seq.length ≤ cap) : k.emit cap seq = some { k with ring := k.ring ++ seq } := by
  simp [Link.emit, h, Nat.not_lt.mpr hf]

theorem Link.emit_overrun {k : Link} {cap : Nat} {seq : List Byte} (h : k.txm = true)
    (hf : cap < k.ring.length + seq.length) : k.emit cap seq = none := by
  simp [Link.emit, h, hf]

/-- Everything an emit that succeeds can do. -/
theorem Link.emit_cases {k k' : Link} {cap : Nat} {seq : List Byte} (h : k.emit cap seq = some k') :
    (k.txm = false ∧ k' = { k with wire := k.wire ++ seq }) ∨
    (k.txm = true ∧ k.ring.length + seq.length ≤ cap ∧ k' = { k with ring := k.ring ++ seq }) := by
  rcases Bool.eq_false_or_eq_true k.txm with ht | ht
  · by_cases hf : k.ring.length + seq.length ≤ cap
    · rw [Link.emit_fits ht hf] at h
      exact .inr ⟨ht, hf, (Option.some.inj h).symm⟩
    · rw [Link.emit_overrun ht (by omega)] at h
      exact absurd h (by simp)
  · rw [Link.emit_polled ht] at h
    exact .inl ⟨ht, (Option.some.inj h).symm⟩

/-! ### Receiving a data byte and completing a frame (`41_receive.md` R143, R144, R146) -/

theorem State.acceptData_busy {s : State} {l : LinkNo} {k : Link} (h : (k.slot k.act).own ≠ .prod) (d : Byte) :
    s.acceptData l k d = .raise .rxSlotBusy := by
  simp [State.acceptData, h]

theorem State.acceptData_free {s : State} {l : LinkNo} {k : Link} (h : (k.slot k.act).own = .prod) (d : Byte) :
    s.acceptData l k d = .done (s.setLink l (k.accept s.params.slotCap d)) := by
  simp [State.acceptData, h]

theorem Link.accept_stored {k : Link} {cap : Nat} (h : k.stores cap = true) (d : Byte) :
    k.accept cap d = (k.setSlot k.act (k.stored d)).countByte := by
  simp [Link.accept, h]

theorem Link.accept_discarded {k : Link} {cap : Nat} (h : k.stores cap = false) (d : Byte) :
    k.accept cap d = k.countByte := by
  simp [Link.accept, h]

theorem Link.stores_iff (k : Link) (cap : Nat) :
    k.stores cap = true ↔ (k.slot k.act).fill = k.cnt ∧ k.cnt.toNat < k.maxRx.toNat ∧ k.cnt.toNat < cap := by
  simp [Link.stores, Link.storeBound]

theorem State.completeFrame_room {s : State} (h : s.rxq.length < s.params.rxqCap) (l : LinkNo) (k : Link) :
    s.completeFrame l k =
      (s.setLink l ((k.setSlot k.act k.completed).nextFrame s.params.nSlots)).pushRxq { link := l, slot := k.act } := by
  simp [State.completeFrame, h]

theorem State.completeFrame_full {s : State} (h : s.params.rxqCap ≤ s.rxq.length) (l : LinkNo) (k : Link) :
    s.completeFrame l k =
      (s.setLink l ((k.setSlot k.act (k.slot k.act).emptied).nextFrame s.params.nSlots)).bumpRxqDrop := by
  simp [State.completeFrame, Nat.not_lt.mpr h]

/-! ### The DRAIN step (`42_transmit.md` R180) -/

theorem State.drainEnabled_iff (s : State) (l : LinkNo) :
    s.drainEnabled l = true ↔
      l.toNat < s.params.nLinks ∧ (s.link l).arm = true ∧ (s.link l).ring ≠ [] ∧ s.faultValid = false := by
  simp [State.drainEnabled, List.length_pos_iff, and_assoc]

theorem State.drain_last {s : State} {l : LinkNo} {c : Byte} (h : (s.link l).ring = [c]) :
    s.drain l =
      (s.setLink l { s.link l with ring := [], wire := (s.link l).wire ++ [c], arm := false }).completeDrain l := by
  simp [State.drain, h]

theorem State.drain_more {s : State} {l : LinkNo} {c d : Byte} {r : List Byte} (h : (s.link l).ring = c :: d :: r) :
    s.drain l = s.setLink l { s.link l with ring := d :: r, wire := (s.link l).wire ++ [c] } := by
  simp [State.drain, h]

theorem State.completeDrain_room {s : State} (h : s.txq.length < s.params.txqCap) (l : LinkNo) :
    s.completeDrain l = s.pushTxq l := by
  simp [State.completeDrain, h]

theorem State.completeDrain_full {s : State} (h : s.params.txqCap ≤ s.txq.length) (l : LinkNo) :
    s.completeDrain l = s.bumpTxqDrop := by
  simp [State.completeDrain, Nat.not_lt.mpr h]

end Sys2Proof.Machine
end

