-- ==== Sys2Proof/Laws/Decode.lean ====
section
/-! SUPPORT. The fields of a packed word, a row's test as a test of the fields, and the decoder by its rows. -/

namespace Sys2Proof

/-- The bits of a packed word, field by field (`30_encoding.md` R81). -/
theorem getLsbD_packWord (op sel : BitVec 4) (link : LinkNo) (arg : Half) (i : Nat) :
    (packWord op sel link arg).getLsbD i =
      if i < 16 then arg.getLsbD i
      else if i < 24 then link.getLsbD (i - 16)
      else if i < 28 then sel.getLsbD (i - 24) else op.getLsbD (i - 28) := by
  show (op ++ sel ++ link ++ arg : BitVec (4 + 4 + 8 + 16)).getLsbD i = _
  simp only [BitVec.getLsbD_append]
  grind

@[simp] theorem opField_packWord (op sel : BitVec 4) (link : LinkNo) (arg : Half) :
    opField (packWord op sel link arg) = op := by
  refine BitVec.eq_of_getLsbD_eq fun i hi => ?_
  rw [opField, BitVec.getLsbD_extractLsb', getLsbD_packWord]
  grind

@[simp] theorem selField_packWord (op sel : BitVec 4) (link : LinkNo) (arg : Half) :
    selField (packWord op sel link arg) = sel := by
  refine BitVec.eq_of_getLsbD_eq fun i hi => ?_
  rw [selField, BitVec.getLsbD_extractLsb', getLsbD_packWord]
  grind

@[simp] theorem linkField_packWord (op sel : BitVec 4) (link : LinkNo) (arg : Half) :
    linkField (packWord op sel link arg) = link := by
  refine BitVec.eq_of_getLsbD_eq fun i hi => ?_
  rw [linkField, BitVec.getLsbD_extractLsb', getLsbD_packWord]
  grind

@[simp] theorem argField_packWord (op sel : BitVec 4) (link : LinkNo) (arg : Half) :
    argField (packWord op sel link arg) = arg := by
  refine BitVec.eq_of_getLsbD_eq fun i hi => ?_
  rw [argField, BitVec.getLsbD_extractLsb', getLsbD_packWord]
  grind

/-- A word's data byte is the low byte of its `arg` field (R82). -/
theorem byteField_packWord (op sel : BitVec 4) (link : LinkNo) (arg : Half) :
    byteField (packWord op sel link arg) = arg.extractLsb' 0 8 := by
  refine BitVec.eq_of_getLsbD_eq fun i hi => ?_
  rw [byteField, BitVec.getLsbD_extractLsb', BitVec.getLsbD_extractLsb', getLsbD_packWord]
  grind

theorem extractLsb'_byteArg (b : Byte) : (byteArg b).extractLsb' 0 8 = b := by
  refine BitVec.eq_of_getLsbD_eq fun i hi => ?_
  show ((0#8 ++ b : BitVec (8 + 8)).extractLsb' 0 8).getLsbD i = _
  rw [BitVec.getLsbD_extractLsb', BitVec.getLsbD_append]
  grind

/-- A word is packed from its fields. -/
theorem packWord_fields (w : Word) : packWord (opField w) (selField w) (linkField w) (argField w) = w := by
  refine BitVec.eq_of_getLsbD_eq fun i hi => ?_
  rw [getLsbD_packWord]
  simp only [opField, selField, linkField, argField, BitVec.getLsbD_extractLsb']
  grind

/-- Two packed words are equal when their fields are. -/
theorem packWord_inj {op op' sel sel' : BitVec 4} {link link' : LinkNo} {arg arg' : Half} :
    packWord op sel link arg = packWord op' sel' link' arg' ↔
      op = op' ∧ sel = sel' ∧ link = link' ∧ arg = arg' := by
  constructor
  · intro h
    refine ⟨?_, ?_, ?_, ?_⟩
    · simpa using congrArg opField h
    · simpa using congrArg selField h
    · simpa using congrArg linkField h
    · simpa using congrArg argField h
  · rintro ⟨rfl, rfl, rfl, rfl⟩; rfl

/-- A mask acts on each field by itself. -/
theorem packWord_and (op op' sel sel' : BitVec 4) (link link' : LinkNo) (arg arg' : Half) :
    packWord op sel link arg &&& packWord op' sel' link' arg' =
      packWord (op &&& op') (sel &&& sel') (link &&& link') (arg &&& arg') := by
  refine BitVec.eq_of_getLsbD_eq fun i hi => ?_
  simp only [BitVec.getLsbD_and, getLsbD_packWord]
  grind

/-- A mask that leaves the low byte of `arg` free: the rest must be zero, so `arg` is that byte. -/
theorem arg_and_eq_zero (arg : Half) : arg &&& 0xFF00#16 = 0 ↔ arg = byteArg (arg.extractLsb' 0 8) := by
  constructor
  · intro h
    refine BitVec.eq_of_getLsbD_eq fun i hi => ?_
    have hi' := congrArg (fun v => v.getLsbD i) h
    show _ = (0#8 ++ arg.extractLsb' 0 8 : BitVec (8 + 8)).getLsbD i
    simp only [BitVec.getLsbD_append, BitVec.getLsbD_extractLsb', BitVec.getLsbD_and] at hi' ⊢
    have hm : (0xFF00#16).getLsbD i = decide (8 ≤ i ∧ i < 16) := by
      interval_cases i <;> rfl
    rw [hm] at hi'
    grind
  · intro h
    rw [h]
    refine BitVec.eq_of_getLsbD_eq fun i hi => ?_
    have hm : (0xFF00#16).getLsbD i = decide (8 ≤ i ∧ i < 16) := by
      interval_cases i <;> rfl
    show ((0#8 ++ arg.extractLsb' 0 8 : BitVec (8 + 8)) &&& 0xFF00#16).getLsbD i = _
    rw [BitVec.getLsbD_and, hm, BitVec.getLsbD_append]
    grind

@[simp] theorem byteArg_and_mask (b : Byte) : byteArg b &&& 0xFF00#16 = 0 :=
  (arg_and_eq_zero (byteArg b)).mpr (by rw [extractLsb'_byteArg])

/-! ### The masks of the opcode map on a packed word (`30_encoding.md` R83) -/

theorem and_all (op sel : BitVec 4) (link : LinkNo) (arg : Half) :
    packWord op sel link arg &&& 0xFFFFFFFF#32 = packWord op sel link arg := by
  have : (0xFFFFFFFF#32 : Word) = packWord 0xF 0xF 0xFF 0xFFFF := by decide
  rw [this, packWord_and]
  exact packWord_inj.mpr ⟨BitVec.and_allOnes, BitVec.and_allOnes, BitVec.and_allOnes, BitVec.and_allOnes⟩

theorem and_linkByte (op sel : BitVec 4) (link : LinkNo) (arg : Half) :
    packWord op sel link arg &&& 0xFF00FF00#32 = packWord op sel 0 (arg &&& 0xFF00) := by
  have : (0xFF00FF00#32 : Word) = packWord 0xF 0xF 0x00 0xFF00 := by decide
  rw [this, packWord_and]
  exact packWord_inj.mpr ⟨BitVec.and_allOnes, BitVec.and_allOnes, BitVec.and_zero, rfl⟩

theorem and_linkByte_byteArg (op sel : BitVec 4) (link : LinkNo) (b : Byte) :
    packWord op sel link (byteArg b) &&& 0xFF00FF00#32 = packWord op sel 0 0 :=
  (and_linkByte _ _ _ _).trans (packWord_inj.mpr ⟨rfl, rfl, rfl, byteArg_and_mask b⟩)

theorem and_link (op sel : BitVec 4) (link : LinkNo) (arg : Half) :
    packWord op sel link arg &&& 0xFF00FFFF#32 = packWord op sel 0 arg := by
  have : (0xFF00FFFF#32 : Word) = packWord 0xF 0xF 0x00 0xFFFF := by decide
  rw [this, packWord_and]
  exact packWord_inj.mpr ⟨BitVec.and_allOnes, BitVec.and_allOnes, BitVec.and_zero, BitVec.and_allOnes⟩

theorem and_opOnly (op sel : BitVec 4) (link : LinkNo) (arg : Half) :
    packWord op sel link arg &&& 0xF0000000#32 = packWord op 0 0 0 := by
  have : (0xF0000000#32 : Word) = packWord 0xF 0x0 0x00 0x0000 := by decide
  rw [this, packWord_and]
  exact packWord_inj.mpr ⟨BitVec.and_allOnes, BitVec.and_zero, BitVec.and_zero, BitVec.and_zero⟩

theorem and_selLink (op sel : BitVec 4) (link : LinkNo) (arg : Half) :
    packWord op sel link arg &&& 0xF000FFFF#32 = packWord op 0 0 arg := by
  have : (0xF000FFFF#32 : Word) = packWord 0xF 0x0 0x00 0xFFFF := by decide
  rw [this, packWord_and]
  exact packWord_inj.mpr ⟨BitVec.and_allOnes, BitVec.and_zero, BitVec.and_zero, BitVec.and_allOnes⟩

theorem and_selOnly (op sel : BitVec 4) (link : LinkNo) (arg : Half) :
    packWord op sel link arg &&& 0xF0FFFFFF#32 = packWord op 0 link arg := by
  have : (0xF0FFFFFF#32 : Word) = packWord 0xF 0x0 0xFF 0xFFFF := by decide
  rw [this, packWord_and]
  exact packWord_inj.mpr ⟨BitVec.and_allOnes, BitVec.and_zero, BitVec.and_allOnes, BitVec.and_allOnes⟩

/-- A row's pattern is its opcode above zero fields. -/
theorem pattern_eq (op : BitVec 4) : packWord op 0 0 0 = (op.setWidth 32) <<< 28 := by
  revert op; decide

/-- A row's test decides between its command and a nonzero must-be-zero field (R84). -/
theorem spelled_eq_ok {w pattern mask : Word} {i j : Instr} :
    spelled w pattern mask i = .ok j ↔ w &&& mask = pattern ∧ i = j := by
  unfold spelled
  split <;> simp_all

theorem spelled_eq_error {w pattern mask : Word} {i : Instr} {e : DecodeError} :
    spelled w pattern mask i = .error e ↔ w &&& mask ≠ pattern ∧ e = .mustBeZero := by
  unfold spelled
  split <;> simp_all [eq_comm]

end Sys2Proof
end

