-- ==== Sys2Proof/Laws/PerInstr.lean ====
section
/-! SUPPORT. Families of statements about every command as syntax, one lemma per constructor. -/

namespace Sys2Proof.Laws.Spells

/-- The encoder's word spells a row of the opcode map, the one its opcode selects (`30_encoding.md` R83). -/
def Statement (i : Instr) : Prop := ∃ row ∈ opcodeMap, row.op = opField (encode i) ∧ row.Spells (encode i)

/-- The rows of the opcode map by position. -/
theorem of_row {i : Instr} (n : Fin opcodeMap.length) (hop : opcodeMap[n].op = opField (encode i))
    (h : encode i &&& opcodeMap[n].mask = opcodeMap[n].pattern) : Statement i :=
  ⟨opcodeMap[n], List.getElem_mem _, hop, h⟩

theorem nop : Statement .nop := of_row (i := .nop) ⟨0, by decide⟩ (by decide) (by decide)

theorem rxb (l : LinkNo) (b : Byte) : Statement (.rxb l b) :=
  of_row (i := .rxb l b) ⟨1, by decide⟩ (opField_packWord _ _ _ _).symm
    ((and_linkByte_byteArg _ _ _ _).trans (by decide))

theorem txs (l : LinkNo) : Statement (.txs l) :=
  of_row (i := .txs l) ⟨2, by decide⟩ (opField_packWord _ _ _ _).symm ((and_link _ _ _ _).trans (by decide))

theorem txd (l : LinkNo) (b : Byte) : Statement (.txd l b) :=
  of_row (i := .txd l b) ⟨3, by decide⟩ (opField_packWord _ _ _ _).symm
    ((and_linkByte_byteArg _ _ _ _).trans (by decide))

theorem txe (l : LinkNo) : Statement (.txe l) :=
  of_row (i := .txe l) ⟨4, by decide⟩ (opField_packWord _ _ _ _).symm ((and_link _ _ _ _).trans (by decide))

theorem rxqp : Statement .rxqp := of_row (i := .rxqp) ⟨5, by decide⟩ (by decide) (by decide)

theorem slrd (l : LinkNo) (s : SlotNo) (n : Half) : Statement (.slrd l s n) :=
  of_row (i := .slrd l s n) ⟨6, by decide⟩ (opField_packWord _ _ _ _).symm ((and_opOnly _ _ _ _).trans (by decide))

theorem fchk (l : LinkNo) (s : SlotNo) : Statement (.fchk l s) :=
  of_row (i := .fchk l s) ⟨7, by decide⟩ (opField_packWord _ _ _ _).symm ((and_selLink _ _ _ _).trans (by decide))

theorem slrl (l : LinkNo) (s : SlotNo) : Statement (.slrl l s) :=
  of_row (i := .slrl l s) ⟨8, by decide⟩ (opField_packWord _ _ _ _).symm ((and_selLink _ _ _ _).trans (by decide))

theorem txqp : Statement .txqp := of_row (i := .txqp) ⟨9, by decide⟩ (by decide) (by decide)

theorem cfgl (l : LinkNo) (r : RegSel) (h : Half) : Statement (.cfgl l r h) :=
  of_row (i := .cfgl l r h) ⟨10, by decide⟩ (opField_packWord _ _ _ _).symm ((and_opOnly _ _ _ _).trans (by decide))

theorem cfgh (l : LinkNo) (r : RegSel) (h : Half) : Statement (.cfgh l r h) :=
  of_row (i := .cfgh l r h) ⟨11, by decide⟩ (opField_packWord _ _ _ _).symm ((and_opOnly _ _ _ _).trans (by decide))

theorem cfgr (l : LinkNo) (r : RegSel) : Statement (.cfgr l r) :=
  of_row (i := .cfgr l r) ⟨12, by decide⟩ (opField_packWord _ _ _ _).symm ((and_selLink _ _ _ _).trans (by decide))

theorem strd (r : RegSel) : Statement (.strd r) :=
  of_row (i := .strd r) ⟨13, by decide⟩ (opField_packWord _ _ _ _).symm ((and_selOnly _ _ _ _).trans (by decide))

theorem linit (l : LinkNo) : Statement (.linit l) :=
  of_row (i := .linit l) ⟨14, by decide⟩ (opField_packWord _ _ _ _).symm ((and_link _ _ _ _).trans (by decide))

end Sys2Proof.Laws.Spells
end

