-- ==== Sys2Proof/Laws/Step.lean ====
section
/-! SUPPORT. What one step of the block can do: the head of the schedule decides, or the drain engines move. -/

namespace Sys2Proof.Machine

theorem State.meetWord_ok {w : Word} {i : Instr} (h : decode w = .ok i) (s : State) : s.meetWord w = exec i s := by
  simp [State.meetWord, h]

theorem State.meetWord_illegal {w : Word} {e : DecodeError} (h : decode w = .error e) {s : State} (hs : s.Running) :
    s.meetWord w = .next (s.takeFault .illegalCommand w) := by
  have hs : s.faultValid = false := hs
  simp [State.meetWord, h, hs]

theorem State.meetWord_halted {w : Word} {e : DecodeError} (h : decode w = .error e) {s : State}
    (hs : s.faultValid = true) : s.meetWord w = .next s.noReply := by
  simp [State.meetWord, h, hs]

theorem chooseFrom_mem {α : Type} {n : Nat} {x : α} : ∀ {xs : List α}, chooseFrom n xs = some x → x ∈ xs
  | [], h => absurd h (by simp [chooseFrom])
  | [y], h => by simp [chooseFrom] at h; simp [h]
  | y :: z :: r, h => List.mem_of_getElem? h

theorem chooseFrom_isSome {α : Type} (n : Nat) : ∀ {xs : List α}, xs ≠ [] → ∃ x, chooseFrom n xs = some x
  | [], h => absurd rfl h
  | [y], _ => ⟨y, rfl⟩
  | y :: z :: r, _ => by
    have : n % (y :: z :: r).length < (y :: z :: r).length := Nat.mod_lt _ (by simp)
    exact ⟨_, List.getElem?_eq_getElem this⟩

theorem State.mem_drainable {s : State} {l : LinkNo} :
    l ∈ s.drainable ↔ s.drainEnabled l = true := by
  simp only [State.drainable, List.mem_filter, List.mem_map, List.mem_range]
  constructor
  · exact fun h => h.2
  · intro h
    refine ⟨⟨l.toNat, ((State.drainEnabled_iff s l).mp h).1, ?_⟩, h⟩
    exact BitVec.eq_of_toNat_eq (by simp)

/-- A drainable link's DRAIN step is enabled, whatever the parameters. -/
theorem State.drainEnabled_of_mem {s : State} {l : LinkNo} (h : l ∈ s.drainable) : s.drainEnabled l = true :=
  (List.mem_filter.mp h).2

/-- With nothing pending, either no DRAIN is enabled and nothing happens, or one enabled DRAIN is taken. -/
theorem State.idle_cases (s : State) :
    (s.drainable = [] ∧ s.idle = s.noReply) ∨
    ∃ l ∈ s.drainable, s.drainEnabled l = true ∧ s.idle = ((s.drain l).drew).noReply := by
  by_cases h : s.drainable = []
  · exact .inl ⟨h, by simp [State.idle, h, chooseFrom]⟩
  · obtain ⟨l, hl⟩ := chooseFrom_isSome (Config.drainPick s.draws) h
    have hm := chooseFrom_mem hl
    exact .inr ⟨l, hm, State.drainEnabled_of_mem hm, by simp [State.idle, hl]⟩

/-- Everything a step can do when it answers a next state. -/
theorem step_cases {s t : State} (h : step s = .next t) :
    (s.pending = [] ∧ s.drainable = [] ∧ t = s.noReply) ∨
    (s.pending = [] ∧ ∃ l, s.drainEnabled l = true ∧ t = ((s.drain l).drew).noReply) ∨
    (∃ a w rest i, s.pending = .command a w :: rest ∧ decode w = .ok i ∧ exec i (s.accept a rest) = .next t) ∨
    (∃ a w rest e, s.pending = .command a w :: rest ∧ decode w = .error e ∧
      ((s.faultValid = true ∧ t = (s.accept a rest).noReply) ∨
        (s.faultValid = false ∧ t = (s.accept a rest).takeFault .illegalCommand w))) ∨
    (∃ l rest, s.pending = .drain l :: rest ∧
      ((s.drainEnabled l = true ∧ t = ((s.setPending rest).drain l).noReply) ∨
        (s.drainEnabled l = false ∧ t = (s.setPending rest).noReply))) ∨
    ∃ rest, s.pending = .reset :: rest ∧ t = (s.setPending rest).applyReset := by
  unfold step at h
  split at h
  · next hp =>
    injection h with h
    rcases s.idle_cases with ⟨hd, hi⟩ | ⟨l, -, hl, hi⟩
    · exact .inl ⟨hp, hd, h ▸ hi⟩
    · exact .inr (.inl ⟨hp, l, hl, h ▸ hi⟩)
  · next a w rest hp =>
    cases hw : decode w with
    | ok i =>
      rw [State.meetWord_ok hw] at h
      exact .inr (.inr (.inl ⟨a, w, rest, i, hp, hw, h⟩))
    | error e =>
      refine .inr (.inr (.inr (.inl ⟨a, w, rest, e, hp, hw, ?_⟩)))
      rcases Bool.eq_false_or_eq_true s.faultValid with hv | hv
      · rw [State.meetWord_halted hw (s := s.accept a rest) hv] at h
        exact .inl ⟨hv, by injection h with h; exact h.symm⟩
      · rw [State.meetWord_illegal hw (s := s.accept a rest) hv] at h
        exact .inr ⟨hv, by injection h with h; exact h.symm⟩
  · next l rest hp =>
    injection h with h
    refine .inr (.inr (.inr (.inr (.inl ⟨l, rest, hp, ?_⟩))))
    have he : (s.setPending rest).drainEnabled l = s.drainEnabled l := rfl
    rcases Bool.eq_false_or_eq_true (s.drainEnabled l) with hl | hl
    · exact .inl ⟨hl, by rw [← h, State.drainEvent, he, if_pos hl]⟩
    · exact .inr ⟨hl, by rw [← h, State.drainEvent, he, hl]; rfl⟩
  · next rest hp =>
    injection h with h
    exact .inr (.inr (.inr (.inr (.inr ⟨rest, hp, h.symm⟩))))

/-- The next step after `withFetchWord` meets exactly the placed word. -/
theorem step_withFetchWord (s : State) (nbits w : Nat) :
    step (s.withFetchWord nbits w) = (s.accept .host s.pending).meetWord (tableWord nbits w) := rfl

end Sys2Proof.Machine
end

