-- ==== Sys2Proof/Tests/Slice0.lean ====
section
/-! SUPPORT. Tests of one step each, with results taken from the spec (`30_encoding.md` R83 to R88, the vectors of
`95_test_vectors.md`), and for each statement a concrete state and operands that meet its hypotheses. -/

namespace Sys2Proof.Tests

open Sys2Proof Sys2Proof.Machine

/-! ### Small states -/

/-- The parameters of the vectors. -/
def P : Params := Config.resetParams

/-- Small parameters, so that every bound is near. -/
def Q : Params := { nLinks := 2, nSlots := 2, slotCap := 4, rxqCap := 1, txqCap := 1, txRingCap := 8 }

/-- A link after reset with two slots. -/
def k0 : Link := Link.atReset 2

/-- Reset state with `k` for link 0. -/
def onP (k : Link) : State := { State.resetWith P with links := [k, k0] }

/-- The same over the small parameters. -/
def onQ (k : Link) : State := { State.resetWith Q with links := [k, k0] }

/-- The state a command leaves, if it leaves one. -/
def after (o : Host.Outcome State Fault Refusal) : Option State :=
  match o with
  | .next t => some t
  | .fault _ => none
  | .refused _ => none

/-- The response word of the step. -/
def said (o : Host.Outcome State Fault Refusal) : Option Word := (after o).bind fun t => t.response.map Response.word

/-- The latch after the step. -/
def latched (o : Host.Outcome State Fault Refusal) : Option (Bool × Byte × Word) :=
  (after o).map fun t => (t.faultValid, t.faultCode, t.faultCmd)

/-- Link 0 after the step. -/
def link0 (o : Host.Outcome State Fault Refusal) : Option Link := (after o).map fun t => t.link 0

/-- A slot with these contents from index 0. -/
def slotOf (own : Own) (len : Half) (bs : List Byte) : Slot :=
  { own := own, len := len, fill := BitVec.ofNat 16 bs.length
    data := (List.range bs.length).zip bs }

/-- An empty producer-owned slot. -/
def v0 : Slot := Slot.atReset

/-! ### Well-formedness refuses each ill-formed command (R85) -/

theorem test_wf_cfgl_reserved : (Instr.cfgl 0 7 0).wf = false ∧ (Instr.cfgl 0 15 0).wf = false := by decide
theorem test_wf_cfgl_readOnly : (Instr.cfgl 0 5 0).wf = false ∧ (Instr.cfgl 0 6 0).wf = false := by decide
theorem test_wf_cfgh_reserved : (Instr.cfgh 0 7 0).wf = false ∧ (Instr.cfgh 0 15 0).wf = false := by decide
theorem test_wf_cfgh_readOnly : (Instr.cfgh 0 5 0).wf = false ∧ (Instr.cfgh 0 6 0).wf = false := by decide
theorem test_wf_cfgr_reserved : (Instr.cfgr 0 7).wf = false ∧ (Instr.cfgr 0 6).wf = true := by decide
theorem test_wf_strd_reserved : (Instr.strd 6).wf = false ∧ (Instr.strd 5).wf = true := by decide
theorem test_wf_cfgl_last : (Instr.cfgl 0 4 0).wf = true ∧ (Instr.cfgh 0 4 0).wf = true := by decide

/-! ### Every command's word, written out from R83 and R87 -/

theorem test_decode_nop : decode 0x00000000 = .ok .nop := by decide
theorem test_decode_rxb : decode 0x1001007E = .ok (.rxb 1 0x7E) := by decide
theorem test_decode_txs : decode 0x20FE0000 = .ok (.txs 0xFE) := by decide
theorem test_decode_txd : decode 0x30800001 = .ok (.txd 0x80 0x01) := by decide
theorem test_decode_txe : decode 0x40010000 = .ok (.txe 1) := by decide
theorem test_decode_rxqp : decode 0x50000000 = .ok .rxqp := by decide
theorem test_decode_slrd : decode 0x6F01FFFE = .ok (.slrd 1 15 0xFFFE) := by decide
theorem test_decode_fchk : decode 0x73000000 = .ok (.fchk 0 3) := by decide
theorem test_decode_slrl : decode 0x81050000 = .ok (.slrl 5 1) := by decide
theorem test_decode_txqp : decode 0x90000000 = .ok .txqp := by decide
theorem test_decode_cfgl : decode 0xA4000001 = .ok (.cfgl 0 4 1) := by decide
theorem test_decode_cfgh : decode 0xB200FFFF = .ok (.cfgh 0 2 0xFFFF) := by decide
theorem test_decode_cfgr : decode 0xC6FF0000 = .ok (.cfgr 0xFF 6) := by decide
theorem test_decode_strd : decode 0xD5000000 = .ok (.strd 5) := by decide
theorem test_decode_linit : decode 0xE0020000 = .ok (.linit 2) := by decide

/-- V-C-12 and V-RX-17: a nonzero must-be-zero field, or `op = 0xF`. -/
theorem test_decode_illegal :
    [0x00000001, 0x50000001, 0x90010000, 0x20000001, 0xE1000000, 0xD0010000, 0x10000141].map decode =
      List.replicate 7 (.error .mustBeZero) ∧ decode 0xF0000000 = .error .reservedOpcode := by decide

/-- The interface's word numbering is the word's own (R63, R80). -/
theorem test_decodeTableWord :
    decodeTableWord 32 0x3001007D = some (.txd 1 0x7D) ∧ decodeTableWord 32 0xF0000000 = none ∧
    decodeTableWord 40 0 = none := by decide

/-- R87's two examples and R88's CFGW. -/
theorem test_assemble :
    assembleLine "RXB 1, 0x7E".toList = some [0x1001007E] ∧
    assembleLine "CFGL 0, TXMODE, 1".toList = some [0xA4000001] ∧
    assembleLine "CFGW 0, ACCM_TX, 0x12345678".toList = some [0xA1005678, 0xB1001234] ∧
    assembleLine "TXFRAME 0, 0xFF, 3".toList = some [0x20000000, 0x300000FF, 0x30000003, 0x40000000] := by decide

/-! ### The codec (V-COD, V-CRC, V-FCS) -/

theorem test_stuff_accm_bit31 :
    stuff 0x1F 0x80000000 = [0x7D, 0x3F] ∧ stuff 0x1F 0x7FFFFFFF = [0x1F] ∧ stuff 0x20 0xFFFFFFFF = [0x20] := by decide
theorem test_crc : crc 0xFFFF 0x41 = 0x5C0A ∧ crc 0xFFFF 0x7D = 0xA7E5 ∧ crc 0xFFFF 0xFF = 0x00FF := by decide
theorem test_fcs_check :
    fcsOver 0xFFFF [0x31, 0x32, 0x33, 0x34, 0x35, 0x36, 0x37, 0x38, 0x39] = 0x6F91 ∧ fcsBytes 0x6F91 = [0x6E, 0x90] := by
  decide
theorem test_classify :
    classify true 0 0x7E 0 = .escaped ∧ classify false 0 0x7E 0 = .empty ∧ classify false 3 0x7E 0 = .frameEnd ∧
    classify false 0 0x01 2 = .dropped ∧ classify false 0 0x01 1 = .data := by decide

/-! ### One step of each command -/

/-- V-C-11. -/
theorem test_nop : after (exec .nop (State.resetWith P)) = some (State.resetWith P) := by decide

/-- V-RX-4's first escaped byte: `7E` after an escape is the data byte `5E`. -/
theorem test_rxb_escaped :
    link0 (exec (.rxb 0 0x7E) (onP { k0 with esc := true })) =
      some { k0 with cnt := 1, slots := [slotOf .prod 0 [0x5E], v0] } := by decide

/-- V-RX-14: a data byte into a queued slot faults with RxSlotBusy. -/
theorem test_rxb_busy :
    latched (exec (.rxb 0 0x42) (onP { k0 with slots := [slotOf .queued 1 [0x41], v0] })) =
      some (true, 0x06, 0x10000042) := by decide

/-- V-TX-1. -/
theorem test_txs : link0 (exec (.txs 0) (onP k0)) = some { k0 with txo := true, wire := [0x7E] } := by decide

/-- V-TX-6. -/
theorem test_txs_busy : latched (exec (.txs 0) (onP { k0 with txo := true })) = some (true, 0x08, 0x20000000) := by
  decide

/-- V-TX-2: `01` is sent `7D 21`. -/
theorem test_txd :
    link0 (exec (.txd 0 0x01) (onP { k0 with txo := true })) =
      some { k0 with txo := true, fcs := 0x1E0E, wire := [0x7D, 0x21] } := by decide

/-- V-TX-5. -/
theorem test_txd_closed : latched (exec (.txd 0 0x55) (onP k0)) = some (true, 0x07, 0x30000055) := by decide

/-- V-TX-12: after the payload byte `2A` the FCS goes low byte first and is stuffed. -/
theorem test_txe :
    (link0 (exec (.txe 0) (onP { k0 with txo := true, fcs := crc 0xFFFF 0x2A }))).map Link.wire =
      some [0x20, 0x7D, 0x5E, 0x7E] := by decide

/-- V-TX-8: the closing bytes do not fit in a ring of 4. -/
theorem test_txe_overrun :
    latched (exec (.txe 0)
      { onP { k0 with txo := true, txm := true, ring := [0x7E, 0x7D, 0x5E, 0x41] } with
        params := { P with txRingCap := 4 } }) = some (true, 0x09, 0x40000000) := by decide

/-- V-Q-14: the descriptor of link 1's slot 0, of length 1, is popped first, and the slot becomes HELD. -/
theorem test_rxqp :
    said (exec .rxqp { State.resetWith P with
      links := [k0, { k0 with slots := [slotOf .queued 1 [0x42], v0] }], rxq := [⟨1, 0⟩, ⟨0, 0⟩] }) =
      some 0x80010001 := by decide

/-- V-Q-1. -/
theorem test_rxqp_empty : said (exec .rxqp (State.resetWith P)) = some 0x00000000 := by decide

/-- V-Q-5. -/
theorem test_slrd :
    said (exec (.slrd 0 0 0) (onP { k0 with slots := [slotOf .held 1 [0x41], v0] })) = some 0x00000041 ∧
    latched (exec (.slrd 0 0 1) (onP { k0 with slots := [slotOf .held 1 [0x41], v0] })) =
      some (true, 0x05, 0x60000001) := by decide

/-- V-Q-6. -/
theorem test_slrd_badSlot : latched (exec (.slrd 0 2 0) (onP k0)) = some (true, 0x03, 0x62000000) := by decide

/-- V-Q-10: the FCS verdict, and it is counted. -/
theorem test_fchk_fcs :
    (after (exec (.fchk 0 0) (onP { k0 with slots := [slotOf .held 1 [0x41], v0] }))).map
      (fun t => (t.response.map Response.word, t.fcsErr, t.mruErr)) = some (some 0x5C0A0002, 1, 0) := by decide

/-- V-Q-9: a truncated frame has the size verdict. -/
theorem test_fchk_size :
    (after (exec (.fchk 0 0) (onP { k0 with slots := [slotOf .held 4 [0x41, 0x42], v0] }))).map
      (fun t => (t.response.map Response.word, t.fcsErr, t.mruErr)) = some (some 0x00000001, 0, 1) := by decide

/-- V-Q-12. -/
theorem test_slrl :
    (link0 (exec (.slrl 0 0) (onP { k0 with slots := [slotOf .held 1 [0x41], v0] }))).map
      (fun k => ((k.slot 0).own, (k.slot 0).len, (k.slot 0).fill)) = some (.prod, 0, 0) ∧
    latched (exec (.slrl 0 0) (onP k0)) = some (true, 0x04, 0x80000000) := by decide

/-- V-Q-16 and V-Q-2. -/
theorem test_txqp :
    said (exec .txqp { State.resetWith P with txq := [0] }) = some 0x80000000 ∧
    said (exec .txqp (State.resetWith P)) = some 0x00000000 := by decide

/-- V-C-1's first write: the low half only. -/
theorem test_cfgl : (link0 (exec (.cfgl 0 0 0) (onP k0))).map Link.accmRx = some 0xFFFF0000 := by decide

/-- V-C-14: the selector is checked before the link. -/
theorem test_cfgl_order : latched (exec (.cfgl 9 5 0) (onP k0)) = some (true, 0x01, 0xA5090000) := by decide

/-- V-C-2: the upper half of a 16-bit register ignores writes. -/
theorem test_cfgh : (link0 (exec (.cfgh 0 2 0xFFFF) (onP { k0 with maxRx := 0x1234 }))).map Link.maxRx = some 0x1234 := by
  decide

/-- V-C-5: CNT 2, ESC 1. -/
theorem test_cfgr_lstat : said (exec (.cfgr 0 5) (onP { k0 with cnt := 2, esc := true })) = some 0x00020001 := by decide

/-- V-TX-9b: an armed, buffered link with five bytes in its ring. -/
theorem test_cfgr_armed :
    said (exec (.cfgr 0 5) (onP { k0 with txm := true, arm := true, ring := [0x7E, 0x41, 0xF5, 0xA3, 0x7E] })) =
      some 0x0000000C ∧
    said (exec (.cfgr 0 6) (onP { k0 with txm := true, arm := true, ring := [0x7E, 0x41, 0xF5, 0xA3, 0x7E] })) =
      some 0x00000005 := by decide

/-- V-C-6's `STRD 4`, with `FCS_ERR = 1`. -/
theorem test_strd : said (exec (.strd 4) { State.resetWith P with fcsErr := 1 }) = some 1 := by decide

/-- V-C-13. -/
theorem test_strd_reserved : latched (exec (.strd 6) (State.resetWith P)) = some (true, 0x01, 0xD6000000) := by decide

/-- V-C-7. -/
theorem test_linit :
    (link0 (exec (.linit 0) (onP { k0 with esc := true, cnt := 2, slots := [slotOf .prod 0 [0x41, 0x42], v0] }))).map
      (fun k => (k.esc, k.cnt, k.act, (k.slot 0).fill)) = some (false, 0, 0, 0) := by decide

/-- V-C-8. -/
theorem test_linit_busy :
    latched (exec (.linit 0) (onP { k0 with slots := [slotOf .queued 1 [0x41], v0] })) =
      some (true, 0x0A, 0xE0000000) := by decide

/-- V-TX-10's second completion: the ring's last byte goes out, the queue is full, the drop is counted. -/
theorem test_drain_drop :
    let t := State.drainEvent { onQ { k0 with txm := true, arm := true, ring := [0x7E], wire := [0xA3] } with txq := [0] } 0
    t.link 0 = { k0 with txm := true, wire := [0xA3, 0x7E] } ∧ t.txq = [0] ∧ t.txqDrop = 1 := by decide

/-- V-C-17: the illegal word halts the block and DRAIN is no longer enabled. -/
theorem test_step_halts :
    let s := onP { k0 with txm := true, arm := true, ring := [0x41, 0x7E] }
    (after (step (s.withFetchWord 32 0xF0000000))).map (fun t => (t.faultCode, t.faultCmd, t.drainEnabled 0)) =
      some (0x01, 0xF0000000, false) := by decide

/-- The step after `withFetchWord` runs exactly the placed word. -/
theorem test_step_withFetchWord :
    after (step (State.reset.withFetchWord 32 0xA4000001)) = after (exec (.cfgl 0 4 1) State.reset) := by decide

/-! ### States that have the invariant -/

theorem next_of_after {o : Host.Outcome State Fault Refusal} (h : (after o).isSome = true) : ∃ t, o = .next t := by
  cases o with
  | next t => exact ⟨t, rfl⟩
  | fault r => exact absurd h (by simp [after])
  | refused r => exact absurd h (by simp [after])

/-- Right after reset, over the small parameters. -/
def sReset : State := State.resetWith Q
/-- An escape is pending. -/
def sEsc : State := onQ { k0 with esc := true }
/-- Both slots belong to the consumer, the active one still queued. -/
def sBusy : State :=
  { onQ { k0 with slots := [slotOf .queued 1 [0x41], slotOf .held 1 [0x42]] } with rxq := [⟨0, 0⟩] }
/-- The same with an escape pending. -/
def sEscBusy : State :=
  { onQ { k0 with esc := true, slots := [slotOf .queued 1 [0x41], slotOf .held 1 [0x42]] } with rxq := [⟨0, 0⟩] }
/-- One byte of a frame is stored. -/
def sFill : State := onQ { k0 with cnt := 1, slots := [slotOf .prod 0 [0x41], v0] }
/-- The same with the RX Descriptor Queue full. -/
def sFillFull : State :=
  { State.resetWith Q with
    links := [{ k0 with cnt := 1, slots := [slotOf .prod 0 [0x41], v0] },
              { k0 with act := 1, slots := [slotOf .queued 1 [0x42], v0] }], rxq := [⟨1, 0⟩] }
/-- A complete frame is queued. -/
def sQueued : State := { onQ { k0 with act := 1, slots := [slotOf .queued 2 [0, 0], v0] } with rxq := [⟨0, 0⟩] }
/-- A frame with a good FCS is held. -/
def sGood : State := onQ { k0 with act := 1, slots := [slotOf .held 2 [0, 0], v0] }
/-- A frame with a bad FCS is held. -/
def sBad : State := onQ { k0 with act := 1, slots := [slotOf .held 2 [0, 1], v0] }
/-- A held frame one byte longer than the MRU. -/
def sLong : State := onQ { k0 with act := 1, mru := 1, slots := [slotOf .held 2 [0, 0], v0] }
/-- A held frame of which one byte was discarded. -/
def sTruncated : State := onQ { k0 with act := 1, slots := [slotOf .held 3 [0x41, 0x42], v0] }
/-- A polled frame is open. -/
def sPolled : State := onQ { k0 with txo := true, wire := [0x7E] }
/-- A buffered frame is open. -/
def sBuffered : State := onQ { k0 with txo := true, txm := true, ring := [0x7E] }
/-- A buffered frame is open and one byte of the ring is free. -/
def sOneFree : State := onQ { k0 with txo := true, txm := true, ring := [0x7E, 0x41, 0x41, 0x41, 0x41, 0x41, 0x41] }
/-- An armed link with one byte to send. -/
def sLast : State := onQ { k0 with txm := true, arm := true, ring := [0x7E] }
/-- The same with the TX Notification Queue full. -/
def sLastFull : State := { onQ { k0 with txm := true, arm := true, ring := [0x7E] } with txq := [1] }
/-- An armed link with two bytes to send. -/
def sArmed : State := onQ { k0 with txm := true, arm := true, ring := [0x41, 0x7E] }
/-- Buffered mode is selected. -/
def sMode : State := onQ { k0 with txMode := true }
/-- The block is halted. -/
def sHalted : State := { State.resetWith Q with faultValid := true, faultCode := 0x01, faultCmd := 0xF0000000 }

theorem inv_sReset : sReset.Inv := ⟨by decide, by decide, by decide, by decide, by decide, by decide, by decide⟩
theorem inv_sEsc : sEsc.Inv := ⟨by decide, by decide, by decide, by decide, by decide, by decide, by decide⟩
theorem inv_sBusy : sBusy.Inv := ⟨by decide, by decide, by decide, by decide, by decide, by decide, by decide⟩
theorem inv_sEscBusy : sEscBusy.Inv := ⟨by decide, by decide, by decide, by decide, by decide, by decide, by decide⟩
theorem inv_sFill : sFill.Inv := ⟨by decide, by decide, by decide, by decide, by decide, by decide, by decide⟩
theorem inv_sFillFull : sFillFull.Inv := ⟨by decide, by decide, by decide, by decide, by decide, by decide, by decide⟩
theorem inv_sQueued : sQueued.Inv := ⟨by decide, by decide, by decide, by decide, by decide, by decide, by decide⟩
theorem inv_sGood : sGood.Inv := ⟨by decide, by decide, by decide, by decide, by decide, by decide, by decide⟩
theorem inv_sBad : sBad.Inv := ⟨by decide, by decide, by decide, by decide, by decide, by decide, by decide⟩
theorem inv_sLong : sLong.Inv := ⟨by decide, by decide, by decide, by decide, by decide, by decide, by decide⟩
theorem inv_sTruncated : sTruncated.Inv := ⟨by decide, by decide, by decide, by decide, by decide, by decide, by decide⟩
theorem inv_sPolled : sPolled.Inv := ⟨by decide, by decide, by decide, by decide, by decide, by decide, by decide⟩
theorem inv_sBuffered : sBuffered.Inv := ⟨by decide, by decide, by decide, by decide, by decide, by decide, by decide⟩
theorem inv_sOneFree : sOneFree.Inv := ⟨by decide, by decide, by decide, by decide, by decide, by decide, by decide⟩
theorem inv_sLast : sLast.Inv := ⟨by decide, by decide, by decide, by decide, by decide, by decide, by decide⟩
theorem inv_sLastFull : sLastFull.Inv := ⟨by decide, by decide, by decide, by decide, by decide, by decide, by decide⟩
theorem inv_sArmed : sArmed.Inv := ⟨by decide, by decide, by decide, by decide, by decide, by decide, by decide⟩
theorem inv_sMode : sMode.Inv := ⟨by decide, by decide, by decide, by decide, by decide, by decide, by decide⟩
theorem inv_sHalted : sHalted.Inv := ⟨by decide, by decide, by decide, by decide, by decide, by decide, by decide⟩

/-! ### For each statement with hypotheses, a state and operands that meet them all -/

theorem witness_DecodeFollowsOpcodeMap :
    opField 0xFFFFFFFF = 0xF ∧
    (∃ row ∈ opcodeMap, row.op = opField 0x10000141 ∧ ¬ row.Spells 0x10000141) ∧
    (∃ row ∈ opcodeMap, row.op = opField 0xE0FF0000 ∧ row.Spells 0xE0FF0000) := by decide

/-- Operands spelled in decimal, in hexadecimal and by name (R87), at the ends of their ranges. -/
theorem witness_PseudoCommandsExpand :
    fieldValue 8 "255".toList = some 0xFF ∧ fieldValue 8 "256".toList = none ∧
    selector cfgNames "TXMODE".toList = some 4 ∧ selector cfgNames "15".toList = some 15 ∧
    selector strdNames "MRU_ERR".toList = some 5 ∧ fieldValue 32 "0xFFFFFFFF".toList = some 0xFFFFFFFF ∧
    byteList ["0x7E".toList, "0".toList] = some [0x7E, 0] := by decide

theorem witness_ReservedWordsFault :
    ({ sReset with pending := [.command (.src 0) 0xD6000000] } : State).Running ∧ reservedWord 0xD6000000 = true ∧
    reservedWord 0xD5000000 = false ∧ reservedWord 0x10000100 = true ∧ reservedWord 0x100000FF = false := by decide

theorem witness_StepRunsDecodedCommand :
    ({ sReset with pending := [.command .host 0xA4000001] } : State).pending = .command .host 0xA4000001 :: [] ∧
    decode 0xA4000001 = .ok (.cfgl 0 4 1) := by decide

theorem witness_RaisedFaultHaltsBlock_fault :
    sReset.Inv ∧ sReset.Running ∧ faultOf (.txd 0 0x55) sReset = some .txNotOpen := ⟨inv_sReset, by decide, by decide⟩
theorem witness_RaisedFaultHaltsBlock_word : sReset.Running ∧ decode 0xF0000000 = .error .reservedOpcode := by decide
theorem witness_RaisedFaultHaltsBlock_halted :
    ({ sHalted with pending := [.drain 0, .reset] } : State).faultValid = true ∧
    (∃ t, step { sHalted with pending := [.drain 0, .reset] } = .next t) ∧
    ∀ rest, ({ sHalted with pending := [.drain 0, .reset] } : State).pending ≠ .reset :: rest :=
  ⟨rfl, next_of_after (by decide), by intro rest h; injection h with h; exact absurd h (by decide)⟩

/-- Every code of R271 is the first that applies somewhere. -/
theorem witness_CommandsFaultExactlyAsListed :
    faultOf (.cfgl 9 5 0) sReset = some .illegalCommand ∧ faultOf (.rxb 2 0x41) sReset = some .badLink ∧
    faultOf (.slrd 1 2 0) sReset = some .badSlot ∧ faultOf (.slrl 0 1) sReset = some .slotNotOwned ∧
    faultOf (.slrd 0 0 2) sGood = some .slotReadRange ∧ faultOf (.rxb 0 0x41) sBusy = some .rxSlotBusy ∧
    faultOf (.txe 0) sReset = some .txNotOpen ∧ faultOf (.txs 0) sArmed = some .txBusy ∧
    faultOf (.txd 0 0x7E) sOneFree = some .txRingOverrun ∧ faultOf (.linit 0) sQueued = some .linkBusy ∧
    faultOf (.txd 0 0x41) sOneFree = none := by decide
theorem witness_CommandsFaultExactlyAsListed_hyps :
    (sOneFree.Inv ∧ sOneFree.Running ∧ faultOf (.txd 0 0x7E) sOneFree = some .txRingOverrun ∧
      faultOf (.txd 0 0x41) sOneFree = none) ∧ sOneFree.Running ∧ decode 0xF0000000 = .error .reservedOpcode :=
  ⟨⟨inv_sOneFree, by decide, by decide, by decide⟩, by decide, by decide⟩

theorem witness_OnlyResetClearsLatchAndCounters :
    (∃ t, step sHalted = .next t) ∧ sHalted.faultValid = true ∧ ∀ rest, sHalted.pending ≠ .reset :: rest :=
  ⟨next_of_after (by decide), rfl, by intro rest h; exact absurd h (by simp [sHalted, State.resetWith])⟩

theorem witness_ResetSetsEveryField :
    ({ sHalted with pending := [.reset, .drain 1] } : State).pending = .reset :: [.drain 1] := rfl

theorem witness_ResetSatisfiesInv :
    Q.Legal ∧ Params.Legal ⟨256, 16, 65535, 65535, 65535, 65535⟩ ∧ Params.Legal ⟨1, 1, 1, 1, 1, 1⟩ := by decide

/-- A frame about to be completed by the word on the schedule. -/
def sDelivered : State := { sFill with pending := [.command (.src 0) 0x1000007E] }

theorem inv_sDelivered : sDelivered.Inv :=
  ⟨by decide, by decide, by decide, by decide, by decide, by decide, by decide⟩

theorem witness_StepKeepsInv : sDelivered.Inv ∧ ∃ t, step sDelivered = .next t :=
  ⟨inv_sDelivered, next_of_after (by decide)⟩

theorem witness_StepKeepsStorageCanonical : sDelivered.StorageOk ∧ ∃ t, step sDelivered = .next t :=
  ⟨inv_sDelivered.storage, next_of_after (by decide)⟩

theorem witness_StepKeepsQueuesBounded : sDelivered.QueuesBounded ∧ ∃ t, step sDelivered = .next t :=
  ⟨inv_sDelivered.queues, next_of_after (by decide)⟩

theorem witness_QueuedSlotsEqualOccupancy : sFillFull.Inv ∧ sFillFull.queuedSlots = 1 := ⟨inv_sFillFull, by decide⟩

theorem witness_OnlyConfigCommandsWriteConfig :
    ∃ t, step (sReset.withFetchWord 32 0xA4000001) = .next t ∧
      ¬ ((sReset.withFetchWord 32 0xA4000001).link 0).SameConfig (t.link 0) := by
  refine ⟨(((sReset.withFetchWord 32 0xA4000001).accept .host []).setLink 0 { k0 with txMode := true }).noReply, ?_, by decide⟩
  rfl

theorem witness_SlotOwnershipLifeCycle :
    (∃ t, sFill.Inv ∧ exec (.rxb 0 0x42) sFill = .next t) ∧ (∃ t, sFill.Inv ∧ exec (.rxb 0 0x7E) sFill = .next t) ∧
    (∃ t, sFill.Inv ∧ exec (.linit 0) sFill = .next t) ∧
    (∃ t, sQueued.Inv ∧ exec .rxqp sQueued = .next t) ∧ ∃ t, sGood.Inv ∧ exec (.slrl 0 0) sGood = .next t := by
  refine ⟨?_, ?_, ?_, ?_, ?_⟩
  · exact (next_of_after (o := exec (.rxb 0 0x42) sFill) (by decide)).imp fun t h => ⟨inv_sFill, h⟩
  · exact (next_of_after (o := exec (.rxb 0 0x7E) sFill) (by decide)).imp fun t h => ⟨inv_sFill, h⟩
  · exact (next_of_after (o := exec (.linit 0) sFill) (by decide)).imp fun t h => ⟨inv_sFill, h⟩
  · exact (next_of_after (o := exec .rxqp sQueued) (by decide)).imp fun t h => ⟨inv_sQueued, h⟩
  · exact (next_of_after (o := exec (.slrl 0 0) sGood) (by decide)).imp fun t h => ⟨inv_sGood, h⟩

theorem witness_OtherLinksAreNeitherReadNorWritten : linkOperand (.rxb 0 0x41) = some 0 ∧ (1 : LinkNo) ≠ 0 := by decide

theorem witness_ReceiveAndTransmitAreIndependent :
    ∃ i : Instr, i = .txs 0 ∨ i = .txe 0 ∨ ∃ b, i = .txd 0 b := ⟨.txd 0 0x41, .inr (.inr ⟨0x41, rfl⟩)⟩

theorem witness_WireOnlyGrows :
    (∃ t, step { sArmed with pending := [.drain 0] } = .next t) ∧
    ∀ rest, ({ sArmed with pending := [.drain 0] } : State).pending ≠ .reset :: rest :=
  ⟨next_of_after (by decide), by intro rest h; injection h with h; exact absurd h (by decide)⟩

theorem witness_QueuesChangeByOnePushOrPop :
    (∃ t, step { sLast with pending := [.drain 0] } = .next t) ∧
    ∀ rest, ({ sLast with pending := [.drain 0] } : State).pending ≠ .reset :: rest :=
  ⟨next_of_after (by decide), by intro rest h; injection h with h; exact absurd h (by decide)⟩

theorem witness_ArmedRingOnlyDrains :
    sArmed.Inv ∧ (0 : LinkNo).toNat < sArmed.params.nLinks ∧ (sArmed.link 0).arm = true ∧
    ∃ t, exec (.txs 0) sArmed = .next t :=
  ⟨inv_sArmed, by decide, by decide, next_of_after (by decide)⟩

/-- R36's run at the smallest capacity: a push, a refused push, a pop, a pop of the empty queue. -/
theorem witness_CircularBufferIsBoundedList :
    1 ≤ 1 ∧ (circRun 1 [.push 7, .push 8, .pop, .pop] (circReset Nat 1)).1 = [some 7, none] := by decide

theorem witness_ArmedFramesReachTheWire :
    sArmed.Inv ∧ sArmed.Running ∧ sArmed.pending = [] ∧ sArmed.bytesToDrain = 2 :=
  ⟨inv_sArmed, by decide, rfl, by decide⟩

theorem witness_StuffedFormOfEachByte :
    (0x1F : Byte).toNat < 0x20 ∧ (0x80000000 : Word).getLsbD (0x1F : Byte).toNat = true ∧
    (0x7FFFFFFF : Word).getLsbD (0x1F : Byte).toNat = false ∧
    0x20 ≤ (0x20 : Byte).toNat ∧ (0x20 : Byte) ≠ 0x7E ∧ (0x20 : Byte) ≠ 0x7D := by decide

theorem witness_SingleBitErrorIsDetected : fcsOver 0xFFFF [0x00, 0x00] = 0xF0B8 ∧ 1 < [0x00#8, 0x00#8].length ∧ 7 < 8 := by
  decide

theorem witness_RxbEscapedByteIsData :
    (sEsc.Running ∧ (0 : LinkNo).toNat < sEsc.params.nLinks ∧ (sEsc.link 0).esc = true ∧
      ((sEsc.link 0).slot (sEsc.link 0).act).own = .prod) ∧
    (sEscBusy.Running ∧ (0 : LinkNo).toNat < sEscBusy.params.nLinks ∧ (sEscBusy.link 0).esc = true ∧
      ((sEscBusy.link 0).slot (sEscBusy.link 0).act).own ≠ .prod) := by decide

theorem witness_RxbEscapeMarkerSetsFlag :
    sBusy.Running ∧ (1 : LinkNo).toNat < sBusy.params.nLinks ∧ (sBusy.link 1).esc = false := by decide

theorem witness_RxbDelimiterCompletesFrame_empty :
    sReset.Inv ∧ sReset.Running ∧ (1 : LinkNo).toNat < sReset.params.nLinks ∧ (sReset.link 1).esc = false ∧
    (sReset.link 1).cnt = 0 := ⟨inv_sReset, by decide, by decide, by decide, by decide⟩
theorem witness_RxbDelimiterCompletesFrame_room :
    sFill.Inv ∧ sFill.Running ∧ (0 : LinkNo).toNat < sFill.params.nLinks ∧ (sFill.link 0).esc = false ∧
    (sFill.link 0).cnt ≠ 0 ∧ sFill.rxq.length < sFill.params.rxqCap :=
  ⟨inv_sFill, by decide, by decide, by decide, by decide, by decide⟩
theorem witness_RxbDelimiterCompletesFrame_full :
    sFillFull.Inv ∧ sFillFull.Running ∧ (0 : LinkNo).toNat < sFillFull.params.nLinks ∧ (sFillFull.link 0).esc = false ∧
    (sFillFull.link 0).cnt ≠ 0 ∧ sFillFull.rxq.length = sFillFull.params.rxqCap :=
  ⟨inv_sFillFull, by decide, by decide, by decide, by decide, by decide⟩

theorem witness_RxbPlainByteIsDroppedOrData :
    (sReset.Running ∧ (0 : LinkNo).toNat < sReset.params.nLinks ∧ (sReset.link 0).esc = false ∧
      (0x1F : Byte) ≠ 0x7D ∧ (0x1F : Byte) ≠ 0x7E ∧
      ((0x1F : Byte).toNat < 0x20 ∧ (sReset.link 0).accmRx.getLsbD (0x1F : Byte).toNat = true)) ∧
    (¬ ((0x20 : Byte).toNat < 0x20 ∧ (sReset.link 0).accmRx.getLsbD (0x20 : Byte).toNat = true) ∧
      ((sReset.link 0).slot (sReset.link 0).act).own = .prod) ∧
    (sBusy.Running ∧ (0 : LinkNo).toNat < sBusy.params.nLinks ∧ (sBusy.link 0).esc = false ∧
      ((sBusy.link 0).slot (sBusy.link 0).act).own ≠ .prod) := by decide

theorem witness_RxbFrame : ∃ t, exec (.rxb 0 0x42) sFill = .next t := next_of_after (by decide)

/-- The longest payload that fits. -/
theorem witness_EncodedFrameIsReceivedWhole :
    sReset.Inv ∧ sReset.Running ∧ (1 : LinkNo).toNat < sReset.params.nLinks ∧ (sReset.link 1).esc = false ∧
    (sReset.link 1).cnt = 0 ∧ ((sReset.link 1).slot (sReset.link 1).act).own = .prod ∧
    (sReset.link 1).accmRx &&& ~~~ 0xFFFFFFFF#32 = 0 ∧
    [0x7E#8, 0x01#8].length + 2 ≤ min (sReset.link 1).maxRx.toNat sReset.params.slotCap ∧
    sReset.rxq.length < sReset.params.rxqCap :=
  ⟨inv_sReset, by decide, by decide, by decide, by decide, by decide, by decide, by decide, by decide⟩

theorem witness_TxsOpensFrame :
    (sReset.Inv ∧ sReset.Running ∧ sReset.params.nLinks ≤ (2 : LinkNo).toNat) ∧
    (sReset.link 0).txo = false ∧ (sReset.link 0).arm = false ∧ (sReset.link 0).txMode = false :=
  ⟨⟨inv_sReset, by decide, by decide⟩, by decide, by decide, by decide⟩
theorem witness_TxsOpensFrame_buffered :
    sMode.Inv ∧ sMode.Running ∧ (0 : LinkNo).toNat < sMode.params.nLinks ∧ (sMode.link 0).txo = false ∧
    (sMode.link 0).arm = false ∧ (sMode.link 0).txMode = true :=
  ⟨inv_sMode, by decide, by decide, by decide, by decide, by decide⟩
theorem witness_TxsOpensFrame_busy :
    (sPolled.Inv ∧ sPolled.Running ∧ (sPolled.link 0).txo = true) ∧ sArmed.Inv ∧ sArmed.Running ∧ (sArmed.link 0).arm = true :=
  ⟨⟨inv_sPolled, by decide, by decide⟩, inv_sArmed, by decide, by decide⟩

/-- The bound of the ring: `41` just fits into the last byte, `7E` does not. -/
theorem witness_TxdSendsStuffedByte :
    (sReset.Running ∧ sReset.params.nLinks ≤ (2 : LinkNo).toNat ∧ (sReset.link 0).txo = false) ∧
    (sPolled.Running ∧ (sPolled.link 0).txo = true ∧ (sPolled.link 0).txm = false) ∧
    (sOneFree.Running ∧ (0 : LinkNo).toNat < sOneFree.params.nLinks ∧ (sOneFree.link 0).txo = true ∧
      (sOneFree.link 0).txm = true ∧
      (sOneFree.link 0).ring.length + (stuff 0x41 (sOneFree.link 0).accmTx).length ≤ sOneFree.params.txRingCap ∧
      sOneFree.params.txRingCap < (sOneFree.link 0).ring.length + (stuff 0x7E (sOneFree.link 0).accmTx).length) := by
  decide

theorem witness_TxeEndsFrame :
    (sReset.Inv ∧ sReset.Running ∧ sReset.params.nLinks ≤ (2 : LinkNo).toNat ∧ (sReset.link 0).txo = false) ∧
    (sPolled.Inv ∧ sPolled.Running ∧ (sPolled.link 0).txo = true ∧ (sPolled.link 0).txm = false) :=
  ⟨⟨inv_sReset, by decide, by decide, by decide⟩, inv_sPolled, by decide, by decide, by decide⟩
theorem witness_TxeEndsFrame_buffered :
    (sBuffered.Inv ∧ sBuffered.Running ∧ (sBuffered.link 0).txo = true ∧ (sBuffered.link 0).txm = true ∧
      (sBuffered.link 0).ring.length +
        (stuff (((sBuffered.link 0).fcs ^^^ 0xFFFF).extractLsb' 0 8) (sBuffered.link 0).accmTx ++
          stuff (((sBuffered.link 0).fcs ^^^ 0xFFFF).extractLsb' 8 8) (sBuffered.link 0).accmTx ++ [0x7E]).length ≤
        sBuffered.params.txRingCap) ∧
    (sOneFree.Inv ∧ sOneFree.Running ∧ (sOneFree.link 0).txo = true ∧ (sOneFree.link 0).txm = true ∧
      sOneFree.params.txRingCap < (sOneFree.link 0).ring.length +
        (stuff (((sOneFree.link 0).fcs ^^^ 0xFFFF).extractLsb' 0 8) (sOneFree.link 0).accmTx ++
          stuff (((sOneFree.link 0).fcs ^^^ 0xFFFF).extractLsb' 8 8) (sOneFree.link 0).accmTx ++ [0x7E]).length) :=
  ⟨⟨inv_sBuffered, by decide, by decide, by decide, by decide⟩, inv_sOneFree, by decide, by decide, by decide, by decide⟩

theorem witness_DrainMovesOneByte :
    ({ sReset with pending := [.drain 0] } : State).pending = .drain 0 :: [] ∧
    (0 : LinkNo).toNat < sReset.params.nLinks ∧
    ¬ ((sReset.link 0).arm = true ∧ 0 < (sReset.link 0).ring.length ∧ sReset.faultValid = false) ∧
    ((sArmed.link 0).arm = true ∧ sArmed.faultValid = false ∧ (sArmed.link 0).ring = 0x41 :: 0x7E :: []) ∧
    ((sLast.link 0).arm = true ∧ sLast.faultValid = false ∧ (sLast.link 0).ring = [0x7E] ∧
      sLast.txq.length < sLast.params.txqCap) ∧
    ((sLastFull.link 0).arm = true ∧ sLastFull.faultValid = false ∧ (sLastFull.link 0).ring = [0x7E] ∧
      sLastFull.params.txqCap ≤ sLastFull.txq.length) := by decide

theorem witness_IdleStepTakesSomeDrain :
    sReset.pending = [] ∧ (∀ l, sReset.drainEnabled l = false) ∧ sArmed.pending = [] ∧ ∃ l, sArmed.drainEnabled l = true :=
  ⟨rfl, by decide, rfl, 0, by decide⟩

theorem witness_TransmitFrame :
    (∃ t, exec (.txs 0) sMode = .next t) ∧ (∃ t, exec (.txd 0 0x7E) sBuffered = .next t) ∧
    ∃ t, exec (.txe 0) sBuffered = .next t :=
  ⟨next_of_after (by decide), next_of_after (by decide), next_of_after (by decide)⟩

theorem witness_PolledFrameAppearsOnWire :
    sReset.Inv ∧ sReset.Running ∧ (1 : LinkNo).toNat < sReset.params.nLinks ∧ (sReset.link 1).txo = false ∧
    (sReset.link 1).arm = false ∧ (sReset.link 1).txMode = false :=
  ⟨inv_sReset, by decide, by decide, by decide, by decide, by decide⟩

/-- A payload whose frame fills the ring exactly. -/
theorem witness_BufferedFrameAppearsOnWire :
    sMode.Inv ∧ sMode.Running ∧ (0 : LinkNo).toNat < sMode.params.nLinks ∧ (sMode.link 0).txo = false ∧
    (sMode.link 0).arm = false ∧ (sMode.link 0).txMode = true ∧
    (encodeFrame [0x7E, 0x41] (sMode.link 0).accmTx).length ≤ sMode.params.txRingCap ∧
    sMode.txq.length < sMode.params.txqCap :=
  ⟨inv_sMode, by decide, by decide, by decide, by decide, by decide, by decide, by decide⟩
theorem witness_BufferedFrameAppearsOnWire_full :
    ({ sMode with txq := [1] } : State).Inv ∧
    ({ sMode with txq := [1] } : State).txq.length = ({ sMode with txq := [1] } : State).params.txqCap :=
  ⟨⟨by decide, by decide, by decide, by decide, by decide, by decide, by decide⟩, by decide⟩

theorem witness_RxqpPopsDescriptor :
    (sReset.Running ∧ sReset.rxq = []) ∧ sQueued.Running ∧ sQueued.rxq = { link := 0, slot := 0 } :: [] := by decide
theorem witness_RxqpPopsDescriptor_queued : sQueued.Inv ∧ sQueued.Running ∧ { link := 0, slot := 0 } ∈ sQueued.rxq :=
  ⟨inv_sQueued, by decide, by decide⟩

theorem witness_SlrdReadsHeldByte :
    sGood.Inv ∧ sGood.Running ∧ sGood.params.nLinks ≤ (2 : LinkNo).toNat ∧
    (0 : LinkNo).toNat < sGood.params.nLinks ∧ sGood.params.nSlots ≤ (2 : SlotNo).toNat ∧
    (1 : SlotNo).toNat < sGood.params.nSlots ∧ ((sGood.link 0).slot 1).own ≠ .held ∧
    ((sGood.link 0).slot 0).own = .held ∧ ((sGood.link 0).slot 0).fill.toNat ≤ (2 : Half).toNat ∧
    (1 : Half).toNat < ((sGood.link 0).slot 0).fill.toNat :=
  ⟨inv_sGood, by decide, by decide, by decide, by decide, by decide, by decide, by decide, by decide, by decide⟩

theorem witness_FchkGivesVerdict_faults :
    sGood.Inv ∧ sGood.Running ∧ sGood.params.nLinks ≤ (2 : LinkNo).toNat ∧ (1 : LinkNo).toNat < sGood.params.nLinks ∧
    sGood.params.nSlots ≤ (2 : SlotNo).toNat ∧ (1 : SlotNo).toNat < sGood.params.nSlots ∧
    ((sGood.link 0).slot 1).own ≠ .held :=
  ⟨inv_sGood, by decide, by decide, by decide, by decide, by decide, by decide⟩
theorem witness_FchkGivesVerdict_size :
    (sLong.Inv ∧ sLong.Running ∧ ((sLong.link 0).slot 0).own = .held ∧
      (sLong.link 0).mru.toNat < ((sLong.link 0).slot 0).len.toNat) ∧
    (sTruncated.Inv ∧ sTruncated.Running ∧ ((sTruncated.link 0).slot 0).own = .held ∧
      ((sTruncated.link 0).slot 0).fill.toNat < ((sTruncated.link 0).slot 0).len.toNat) :=
  ⟨⟨inv_sLong, by decide, by decide, by decide⟩, inv_sTruncated, by decide, by decide, by decide⟩
theorem witness_FchkGivesVerdict_fcs :
    (sGood.Inv ∧ sGood.Running ∧ ((sGood.link 0).slot 0).own = .held ∧
      ((sGood.link 0).slot 0).len.toNat ≤ (sGood.link 0).mru.toNat ∧
      ((sGood.link 0).slot 0).len.toNat ≤ ((sGood.link 0).slot 0).fill.toNat ∧
      ((sGood.link 0).slot 0).data.bytes 2 = some [0x00, 0x00] ∧ fcsOver 0xFFFF [0x00, 0x00] = 0xF0B8) ∧
    (sBad.Inv ∧ ((sBad.link 0).slot 0).data.bytes 2 = some [0x00, 0x01] ∧ fcsOver 0xFFFF [0x00, 0x01] ≠ 0xF0B8) :=
  ⟨⟨inv_sGood, by decide, by decide, by decide, by decide, by decide, by decide⟩, inv_sBad, by decide, by decide⟩

theorem witness_SlrlReleasesSlot :
    sGood.Shape ∧ sGood.Running ∧ sGood.params.nLinks ≤ (2 : LinkNo).toNat ∧ sGood.params.nSlots ≤ (2 : SlotNo).toNat ∧
    (1 : SlotNo).toNat < sGood.params.nSlots ∧ ((sGood.link 0).slot 1).own ≠ .held ∧
    ((sGood.link 0).slot 0).own = .held :=
  ⟨inv_sGood.shape, by decide, by decide, by decide, by decide, by decide, by decide⟩

theorem witness_TxqpPopsCompletion :
    (sReset.Running ∧ sReset.txq = []) ∧ sLastFull.Running ∧ sLastFull.txq = 1 :: [] := by decide

theorem witness_QueueCommandFrame :
    (∃ t, exec .rxqp sQueued = .next t) ∧ (∃ t, exec (.slrl 0 0) sGood = .next t) ∧ ∃ t, exec .txqp sLastFull = .next t :=
  ⟨next_of_after (by decide), next_of_after (by decide), next_of_after (by decide)⟩

/-- The last register that can be written and the first that cannot, the last link and the first that is absent. -/
theorem witness_CfglWritesLowHalf :
    sReset.Running ∧ 5 ≤ (5 : RegSel).toNat ∧ (4 : RegSel).toNat < 5 ∧ sReset.params.nLinks ≤ (2 : LinkNo).toNat ∧
    (1 : LinkNo).toNat < sReset.params.nLinks := by decide

theorem witness_CfghWritesHighHalf :
    sReset.Running ∧ 5 ≤ (15 : RegSel).toNat ∧ (0 : RegSel).toNat < 5 ∧ sReset.params.nLinks ≤ (255 : LinkNo).toNat ∧
    (0 : LinkNo).toNat < sReset.params.nLinks ∧ ((4 : RegSel) = 2 ∨ (4 : RegSel) = 3 ∨ (4 : RegSel) = 4) := by decide

theorem witness_CfgrReadsRegister :
    sArmed.Inv ∧ sArmed.Running ∧ 7 ≤ (7 : RegSel).toNat ∧ (6 : RegSel).toNat < 7 ∧
    sArmed.params.nLinks ≤ (2 : LinkNo).toNat ∧ (1 : LinkNo).toNat < sArmed.params.nLinks :=
  ⟨inv_sArmed, by decide, by decide, by decide, by decide, by decide⟩

theorem witness_StrdReadsStatus : sQueued.Inv ∧ sQueued.Running ∧ 6 ≤ (6 : RegSel).toNat :=
  ⟨inv_sQueued, by decide, by decide⟩

theorem witness_LinitReinitialisesQuiescentLink :
    (sFill.Inv ∧ sFill.Running ∧ sFill.params.nLinks ≤ (2 : LinkNo).toNat ∧ (0 : LinkNo).toNat < sFill.params.nLinks ∧
      (sFill.link 0).txo = false ∧ (sFill.link 0).arm = false ∧
      ∀ j : SlotNo, j.toNat < sFill.params.nSlots → ((sFill.link 0).slot j).own = .prod) ∧
    (sGood.Inv ∧ ¬ ∀ j : SlotNo, j.toNat < sGood.params.nSlots → ((sGood.link 0).slot j).own = .prod) :=
  ⟨⟨inv_sFill, by decide, by decide, by decide, by decide, by decide, by decide⟩, inv_sGood, by decide⟩

theorem witness_NopDoesNothing : sBusy.Running ∧ opField 0x00010000 = 0x0 ∧ (0x00010000 : Word) ≠ 0x00000000 := by decide

theorem witness_ConfigCommandFrame :
    (∃ t, exec (.cfgl 0 0 0) sFill = .next t) ∧ (∃ t, exec (.cfgh 0 1 0) sArmed = .next t) ∧
    ∃ t, exec (.linit 0) sFill = .next t :=
  ⟨next_of_after (by decide), next_of_after (by decide), next_of_after (by decide)⟩

theorem witness_ReadCommandFrame :
    (∃ t, exec .nop sFill = .next t) ∧ (∃ t, exec (.slrd 0 0 1) sGood = .next t) ∧
    (∃ t, exec (.cfgr 0 5) sFill = .next t) ∧ (∃ t, exec (.strd 5) sFill = .next t) ∧
    ∃ t, exec (.fchk 0 0) sBad = .next t :=
  ⟨next_of_after (by decide), next_of_after (by decide), next_of_after (by decide), next_of_after (by decide),
    next_of_after (by decide)⟩

theorem witness_StorageReadsBackWhatWasWritten :
    Memory.wf [(0, 0x41), (3, 0x42)] ∧ sGood.Shape ∧ (1 : LinkNo).toNat < sGood.params.nLinks ∧
    (1 : SlotNo).toNat < sGood.params.nSlots := by decide

end Sys2Proof.Tests
end

namespace Sys2Proof.Machine

/-! ### Every way a step can write the block

`Effect` lists the writes of a command or of the drain engine; `exec_effect` and `step_effect` say that a step makes
one of them.  The invariants of the block are proved over this list. -/

/-- A write of a link's receive state by a command: the link, its new contents, and what the same step does to the
RX Descriptor Queue and its drop counter. -/
inductive ReceiveWrite (s : State) : Option Instr → LinkNo → Link → (State → State) → Prop
  | escape (l : LinkNo) (b : Byte) : ReceiveWrite s (some (.rxb l b)) l { s.link l with esc := true } id
  | data (l : LinkNo) (b d : Byte) (hown : ((s.link l).slot (s.link l).act).own = .prod) :
      ReceiveWrite s (some (.rxb l b)) l ({ s.link l with esc := false }.accept s.params.slotCap d) id
  | completed (l : LinkNo) (b : Byte) (hl : l.toNat < s.params.nLinks) (hcnt : (s.link l).cnt ≠ 0)
      (hroom : s.rxq.length < s.params.rxqCap) :
      ReceiveWrite s (some (.rxb l b)) l
        (((s.link l).setSlot (s.link l).act (s.link l).completed).nextFrame s.params.nSlots)
        (State.pushRxq · { link := l, slot := (s.link l).act })
  | dropped (l : LinkNo) (b : Byte) (hl : l.toNat < s.params.nLinks) (hcnt : (s.link l).cnt ≠ 0)
      (hfull : s.params.rxqCap ≤ s.rxq.length) :
      ReceiveWrite s (some (.rxb l b)) l
        (((s.link l).setSlot (s.link l).act ((s.link l).slot (s.link l).act).emptied).nextFrame s.params.nSlots)
        State.bumpRxqDrop
  | taken (l : LinkNo) (i : SlotNo) (rest : List Descriptor) (hrxq : s.rxq = { link := l, slot := i } :: rest) :
      ReceiveWrite s (some .rxqp) l ((s.link l).setSlot i { (s.link l).slot i with own := .held })
        (State.setRxq · rest)
  | released (l : LinkNo) (i : SlotNo) (hown : ((s.link l).slot i).own = .held) :
      ReceiveWrite s (some (.slrl l i)) l ((s.link l).setSlot i { ((s.link l).slot i).emptied with own := .prod }) id

/-- A write of a link's transmit state by a command or by the drain engine (`none`), with what the same step does to
the TX Notification Queue and its drop counter. -/
inductive TransmitWrite (s : State) : Option Instr → LinkNo → Link → (State → State) → Prop
  | opened (l : LinkNo) (k : Link) (htxo : (s.link l).txo = false) (harm : (s.link l).arm = false)
      (hemit : { s.link l with txm := (s.link l).txMode, fcs := fcsSeed }.emit s.params.txRingCap [flagByte] = some k) :
      TransmitWrite s (some (.txs l)) l { k with txo := true } id
  | sent (l : LinkNo) (b : Byte) (k : Link) (htxo : (s.link l).txo = true)
      (hemit : (s.link l).emit s.params.txRingCap (stuff b (s.link l).accmTx) = some k) :
      TransmitWrite s (some (.txd l b)) l { k with fcs := crc k.fcs b } id
  | closed (l : LinkNo) (k : Link) (htxo : (s.link l).txo = true)
      (hemit : (s.link l).emit s.params.txRingCap (frameTail (s.link l).fcs (s.link l).accmTx) = some k) :
      TransmitWrite s (some (.txe l)) l { k with txo := false, arm := if k.txm = true then true else k.arm } id
  | drainedMore (l : LinkNo) (c d : Byte) (r : List Byte) (hen : s.drainEnabled l = true)
      (hring : (s.link l).ring = c :: d :: r) :
      TransmitWrite s none l { s.link l with ring := d :: r, wire := (s.link l).wire ++ [c] } id
  | drainedLast (l : LinkNo) (c : Byte) (hen : s.drainEnabled l = true) (hring : (s.link l).ring = [c]) :
      TransmitWrite s none l { s.link l with ring := [], wire := (s.link l).wire ++ [c], arm := false }
        (State.completeDrain · l)

/-- A write of one link by a command (`some i`) or by the drain engine (`none`). -/
inductive LinkWrite (s : State) : Option Instr → LinkNo → Link → (State → State) → Prop
  | receive {i : Option Instr} {l : LinkNo} {k : Link} {f : State → State} (h : ReceiveWrite s i l k f) :
      LinkWrite s i l k f
  | transmit {i : Option Instr} {l : LinkNo} {k : Link} {f : State → State} (h : TransmitWrite s i l k f) :
      LinkWrite s i l k f
  | configLow (l : LinkNo) (r : RegSel) (h : Half) :
      LinkWrite s (some (.cfgl l r h)) l ((s.link l).writeLow r h) id
  | configHigh (l : LinkNo) (r : RegSel) (h : Half) :
      LinkWrite s (some (.cfgh l r h)) l ((s.link l).writeHigh r h) id
  | reinit (l : LinkNo) (hquiet : (s.link l).busy = false) : LinkWrite s (some (.linit l)) l (s.link l).reinit id

/-- Every write of a command (`some i`) or of the drain engine (`none`), the response left aside. -/
inductive Effect (s : State) : Option Instr → State → Prop
  | nothing (i : Option Instr) : Effect s i s
  | latched (i : Option Instr) (c : FaultCode) (w : Word) (hrun : s.faultValid = false) : Effect s i (s.latch c w)
  | badFcs (l : LinkNo) (i : SlotNo) : Effect s (some (.fchk l i)) s.bumpFcsErr
  | badSize (l : LinkNo) (i : SlotNo) : Effect s (some (.fchk l i)) s.bumpMruErr
  | reclaimed (l : LinkNo) (rest : List LinkNo) (htxq : s.txq = l :: rest) : Effect s (some .txqp) (s.setTxq rest)
  | write {i : Option Instr} {l : LinkNo} {k : Link} {f : State → State} (h : LinkWrite s i l k f) :
      Effect s i (f (s.setLink l k))

/-- Two states of the same block, with another schedule, issuer, response or count of free choices. -/
def State.SameHardware (s t : State) : Prop :=
  ∃ e a r n, t = { s with pending := e, issuer := a, response := r, draws := n }

theorem State.SameHardware.noReply (s : State) : s.SameHardware s.noReply := ⟨_, _, _, _, rfl⟩
theorem State.SameHardware.respond (s : State) (v : Word) : s.SameHardware (s.respond v) := ⟨_, _, _, _, rfl⟩
theorem State.SameHardware.accept (s : State) (a : Agent) (rest : List Event) : s.SameHardware (s.accept a rest) :=
  ⟨_, _, _, _, rfl⟩
theorem State.SameHardware.setPending (s : State) (e : List Event) : s.SameHardware (s.setPending e) :=
  ⟨_, _, _, _, rfl⟩

/-! ### A command makes one of the effects -/

/-- The state that a command's body answers is one of the command's effects. -/
def Result.Within (s : State) (i : Instr) : Result → Prop
  | .done u => Effect s (some i) u
  | .reply u _ => Effect s (some i) u
  | .raise _ => True
  | .stop _ => True

theorem State.command_effect {s t : State} {i : Instr} {body : Result} (hb : body.Within s i)
    (h : s.command i body = .next t) : ∃ u, Effect s (some i) u ∧ u.SameHardware t := by
  rcases State.command_cases h with ⟨-, rfl⟩ | ⟨hrun, ⟨u, rfl, rfl⟩ | ⟨u, v, rfl, rfl⟩ | ⟨c, rfl, rfl⟩⟩
  · exact ⟨s, .nothing _, .noReply _⟩
  · exact ⟨u, hb, .noReply u⟩
  · exact ⟨u, hb, .respond u v⟩
  · exact ⟨_, .latched _ c (encode i) hrun, .noReply _⟩

theorem State.onLink_within {s : State} {i : Instr} {l : LinkNo} {body : Link → Result}
    (h : l.toNat < s.params.nLinks → (body (s.link l)).Within s i) : (s.onLink l body).Within s i := by
  by_cases hl : l.toNat < s.params.nLinks
  · exact State.onLink_ok hl body ▸ h hl
  · exact State.onLink_bad (Nat.not_lt.mp hl) body ▸ trivial

theorem State.onHeldSlot_within {s : State} {i : Instr} {l : LinkNo} {j : SlotNo} {body : Link → Slot → Result}
    (h : ((s.link l).slot j).own = .held → (body (s.link l) ((s.link l).slot j)).Within s i) :
    (s.onHeldSlot l j body).Within s i := by
  refine State.onLink_within fun _ => ?_
  split
  · trivial
  · split
    · trivial
    · next hown => exact h (not_not.mp hown)

theorem State.emitThen_within {s : State} {i : Instr} {l : LinkNo} {k : Link} {seq : List Byte} {f : Link → Link}
    (h : ∀ k', k.emit s.params.txRingCap seq = some k' → TransmitWrite s (some i) l (f k') id) :
    (s.emitThen l k seq f).Within s i := by
  unfold State.emitThen
  split
  · trivial
  · next k' hk => exact .write (.transmit (h k' hk))

theorem State.acceptData_within {s : State} {l : LinkNo} (b d : Byte) :
    (s.acceptData l { s.link l with esc := false } d).Within s (.rxb l b) := by
  by_cases hown : ((s.link l).slot (s.link l).act).own = .prod
  · rw [State.acceptData_free (k := { s.link l with esc := false }) hown]
    exact .write (.receive (.data l b d hown))
  · rw [State.acceptData_busy (k := { s.link l with esc := false }) hown]
    trivial

theorem State.completeFrame_effect {s : State} {l : LinkNo} (b : Byte) (hl : l.toNat < s.params.nLinks)
    (hcnt : (s.link l).cnt ≠ 0) : Effect s (some (.rxb l b)) (s.completeFrame l (s.link l)) := by
  by_cases hroom : s.rxq.length < s.params.rxqCap
  · rw [State.completeFrame_room hroom]
    exact .write (.receive (.completed l b hl hcnt hroom))
  · rw [State.completeFrame_full (Nat.not_lt.mp hroom)]
    exact .write (.receive (.dropped l b hl hcnt (Nat.not_lt.mp hroom)))

/-- A delimiter ends a frame only when a byte of it was counted (R115). -/
theorem classify_frameEnd {esc : Bool} {cnt : Half} {b : Byte} {accm : Word}
    (h : classify esc cnt b accm = .frameEnd) : cnt ≠ 0 := by
  simp only [classify] at h
  split_ifs at h with _ _ hend
  exact hend.2

/-- A byte after an escape is in a class of its own (R115). -/
theorem classify_data {esc : Bool} {cnt : Half} {b : Byte} {accm : Word}
    (h : classify esc cnt b accm = .data) : esc = false := by
  simp only [classify] at h
  split_ifs at h with hesc
  exact Bool.eq_false_iff.mpr hesc

theorem rxbBody_within (l : LinkNo) (b : Byte) (s : State) : (rxbBody l b s).Within s (.rxb l b) := by
  refine State.onLink_within fun hl => ?_
  split
  · exact State.acceptData_within b _
  · exact .write (.receive (.escape l b))
  · next hc => exact State.completeFrame_effect b hl (classify_frameEnd hc)
  · exact .nothing _
  · exact .nothing _
  · next hc =>
    have hk : { s.link l with esc := false } = s.link l := by rw [← classify_data hc]
    exact hk ▸ State.acceptData_within b b

theorem txsBody_within (l : LinkNo) (s : State) : (txsBody l s).Within s (.txs l) := by
  refine State.onLink_within fun _ => ?_
  split
  · trivial
  · next hidle =>
    obtain ⟨htxo, harm⟩ := not_or.mp hidle
    exact State.emitThen_within fun k hk =>
      .opened l k (Bool.eq_false_iff.mpr htxo) (Bool.eq_false_iff.mpr harm) hk

theorem txdBody_within (l : LinkNo) (b : Byte) (s : State) : (txdBody l b s).Within s (.txd l b) := by
  refine State.onLink_within fun _ => ?_
  split
  · trivial
  · next hopen => exact State.emitThen_within fun k hk => .sent l b k (Bool.eq_true_of_not_eq_false hopen) hk

theorem txeBody_within (l : LinkNo) (s : State) : (txeBody l s).Within s (.txe l) := by
  refine State.onLink_within fun _ => ?_
  split
  · trivial
  · next hopen => exact State.emitThen_within fun k hk => .closed l k (Bool.eq_true_of_not_eq_false hopen) hk

theorem rxqpBody_within (s : State) : (rxqpBody s).Within s .rxqp := by
  unfold rxqpBody
  split
  · exact .nothing _
  · next d rest hq => exact .write (.receive (.taken d.link d.slot rest hq))

theorem slrdBody_within (l : LinkNo) (i : SlotNo) (n : Half) (s : State) : (slrdBody l i n s).Within s (.slrd l i n) := by
  refine State.onHeldSlot_within fun _ => ?_
  split
  · trivial
  · split
    · trivial
    · exact .nothing _

theorem fchkBody_within (l : LinkNo) (i : SlotNo) (s : State) : (fchkBody l i s).Within s (.fchk l i) := by
  refine State.onHeldSlot_within fun _ => ?_
  split
  · exact .badSize l i
  · split
    · trivial
    · unfold State.fcsVerdict
      split
      · exact .nothing _
      · exact .badFcs l i

theorem slrlBody_within (l : LinkNo) (i : SlotNo) (s : State) : (slrlBody l i s).Within s (.slrl l i) :=
  State.onHeldSlot_within fun hown => Effect.write (.receive (.released l i hown))

theorem txqpBody_within (s : State) : (txqpBody s).Within s .txqp := by
  unfold txqpBody
  split
  · exact .nothing _
  · next l rest hq => exact .reclaimed l rest hq

theorem cfgWriteCheck_within {s : State} {i : Instr} {body : Result} (r : RegSel) (h : body.Within s i) :
    (cfgWriteCheck r body).Within s i := by
  rw [cfgWriteCheck_eq]
  split
  · exact h
  · trivial

theorem cfglBody_within (l : LinkNo) (r : RegSel) (v : Half) (s : State) :
    (cfgWriteCheck r (s.onLink l fun k => .done (s.setLink l (k.writeLow r v)))).Within s (.cfgl l r v) :=
  cfgWriteCheck_within r (State.onLink_within fun _ => Effect.write (.configLow l r v))

theorem cfghBody_within (l : LinkNo) (r : RegSel) (v : Half) (s : State) :
    (cfgWriteCheck r (s.onLink l fun k => .done (s.setLink l (k.writeHigh r v)))).Within s (.cfgh l r v) :=
  cfgWriteCheck_within r (State.onLink_within fun _ => Effect.write (.configHigh l r v))

theorem cfgrBody_within (l : LinkNo) (r : RegSel) (s : State) :
    (cfgReadCheck r (s.onLink l fun k => .reply s (k.readReg r))).Within s (.cfgr l r) := by
  rw [cfgReadCheck_eq]
  split
  · exact State.onLink_within fun _ => .nothing _
  · trivial

theorem strdBody_within (r : RegSel) (s : State) :
    (strdCheck r (.reply s (s.readStatus r))).Within s (.strd r) := by
  rw [strdCheck_eq]
  split
  · exact .nothing _
  · trivial

theorem linitBody_within (l : LinkNo) (s : State) : (linitBody l s).Within s (.linit l) := by
  refine State.onLink_within fun _ => ?_
  split
  · trivial
  · next hquiet => exact .write (.reinit l (Bool.eq_false_iff.mpr hquiet))

/-- Everything a command can do when it answers a next state. -/
theorem exec_effect {i : Instr} {s t : State} (h : exec i s = .next t) :
    ∃ u, Effect s (some i) u ∧ u.SameHardware t := by
  cases i with
  | nop => exact State.command_effect (body := .done s) (.nothing _) h
  | rxb l b => exact State.command_effect (rxbBody_within l b s) h
  | txs l => exact State.command_effect (txsBody_within l s) h
  | txd l b => exact State.command_effect (txdBody_within l b s) h
  | txe l => exact State.command_effect (txeBody_within l s) h
  | rxqp => exact State.command_effect (rxqpBody_within s) h
  | slrd l j n => exact State.command_effect (slrdBody_within l j n s) h
  | fchk l j => exact State.command_effect (fchkBody_within l j s) h
  | slrl l j => exact State.command_effect (slrlBody_within l j s) h
  | txqp => exact State.command_effect (txqpBody_within s) h
  | cfgl l r v => exact State.command_effect (cfglBody_within l r v s) h
  | cfgh l r v => exact State.command_effect (cfghBody_within l r v s) h
  | cfgr l r => exact State.command_effect (cfgrBody_within l r s) h
  | strd r => exact State.command_effect (strdBody_within r s) h
  | linit l => exact State.command_effect (linitBody_within l s) h

/-! ### A step makes one of the effects, or resets -/

theorem State.drain_effect {s : State} {l : LinkNo} (hen : s.drainEnabled l = true) : Effect s none (s.drain l) := by
  obtain ⟨-, -, hring, -⟩ := (State.drainEnabled_iff s l).mp hen
  match hr : (s.link l).ring with
  | [] => exact absurd hr hring
  | [c] => exact State.drain_last hr ▸ .write (.transmit (.drainedLast l c hen hr))
  | c :: d :: r => exact State.drain_more hr ▸ .write (.transmit (.drainedMore l c d r hen hr))

/-- Everything a step can do when it answers a next state: the reset, or one effect, besides the model's own fields. -/
theorem step_effect {s t : State} (h : step s = .next t) :
    (∃ rest, s.pending = .reset :: rest ∧ t = (s.setPending rest).applyReset) ∨
    ∃ s₁ i u, s.SameHardware s₁ ∧ Effect s₁ i u ∧ u.SameHardware t := by
  rcases step_cases h with ⟨-, -, rfl⟩ | ⟨-, l, hen, rfl⟩ | ⟨a, w, rest, i, -, -, hx⟩ | ⟨a, w, rest, e, -, -, hd⟩ |
    ⟨l, rest, -, ⟨hen, rfl⟩ | ⟨-, rfl⟩⟩ | hreset
  · exact .inr ⟨s, none, s, ⟨_, _, _, _, rfl⟩, .nothing _, .noReply s⟩
  · exact .inr ⟨s, none, _, ⟨_, _, _, _, rfl⟩, State.drain_effect hen, ⟨_, _, _, _, rfl⟩⟩
  · obtain ⟨u, hu, hut⟩ := exec_effect hx
    exact .inr ⟨_, some i, u, .accept s a rest, hu, hut⟩
  · rcases hd with ⟨-, rfl⟩ | ⟨hrun, rfl⟩
    · exact .inr ⟨_, none, _, .accept s a rest, .nothing _, .noReply _⟩
    · exact .inr ⟨_, none, _, .accept s a rest, .latched _ .illegalCommand w hrun, .noReply _⟩
  · exact .inr ⟨_, none, _, .setPending s rest, State.drain_effect hen, .noReply _⟩
  · exact .inr ⟨_, none, _, .setPending s rest, .nothing _, .noReply _⟩
  · exact .inl hreset

/-- A property that every effect and the reset keep, and that the model's own fields do not bear on, is kept by every
step. -/
theorem step_keeps {P : State → Prop} (hmodel : ∀ {s t : State}, s.SameHardware t → P s → P t)
    (heffect : ∀ {s : State} {i : Option Instr} {u : State}, Effect s i u → P s → P u)
    (hreset : ∀ {s : State}, P s → P s.applyReset) {s t : State} (hs : P s) (h : step s = .next t) : P t := by
  rcases step_effect h with ⟨rest, -, rfl⟩ | ⟨s₁, i, u, h₁, he, hu⟩
  · exact hreset (hmodel (.setPending s rest) hs)
  · exact hmodel hu (heffect he (hmodel h₁ hs))

/-! ### What an effect writes in the list of links -/

theorem State.completeDrain_frame (s : State) (l : LinkNo) :
    (s.completeDrain l).params = s.params ∧ (s.completeDrain l).links = s.links ∧
      (s.completeDrain l).faultValid = s.faultValid ∧ (s.completeDrain l).faultCode = s.faultCode ∧
      (s.completeDrain l).faultCmd = s.faultCmd := by
  unfold State.completeDrain
  split <;> exact ⟨rfl, rfl, rfl, rfl, rfl⟩

/-- What a write does besides the link itself leaves the parameters, the links and the latch alone. -/
theorem LinkWrite.frame {s : State} {i : Option Instr} {l : LinkNo} {k : Link} {f : State → State}
    (h : LinkWrite s i l k f) (t : State) :
    (f t).params = t.params ∧ (f t).links = t.links ∧ (f t).faultValid = t.faultValid ∧
      (f t).faultCode = t.faultCode ∧ (f t).faultCmd = t.faultCmd := by
  cases h with
  | receive h => cases h <;> exact ⟨rfl, rfl, rfl, rfl, rfl⟩
  | transmit h =>
    cases h with
    | drainedLast l => exact State.completeDrain_frame t l
    | _ => exact ⟨rfl, rfl, rfl, rfl, rfl⟩
  | _ => exact ⟨rfl, rfl, rfl, rfl, rfl⟩

theorem Effect.params {s u : State} {i : Option Instr} (h : Effect s i u) : u.params = s.params := by
  cases h with
  | write hw =>
    obtain ⟨hparams, -⟩ := hw.frame (s.setLink _ _)
    exact hparams
  | _ => rfl

/-- An effect writes at most one link. -/
theorem Effect.links {s u : State} {i : Option Instr} (h : Effect s i u) :
    u.links = s.links ∨ ∃ l k f, LinkWrite s i l k f ∧ u.links = (s.setLink l k).links := by
  cases h with
  | write hw =>
    obtain ⟨-, hlinks, -⟩ := hw.frame (s.setLink _ _)
    exact .inr ⟨_, _, _, hw, hlinks⟩
  | _ => exact .inl rfl

/-- The link `m` after an effect is the link before it, or a write of that link. -/
theorem Effect.link {s u : State} {i : Option Instr} (h : Effect s i u) (m : LinkNo) :
    u.link m = s.link m ∨ ∃ f, LinkWrite s i m (u.link m) f := by
  have hlink {t : State} (ht : u.links = t.links) (hp : t.params = s.params) : u.link m = t.link m := by
    rw [State.link, State.link, ht, h.params, hp]
  rcases h.links with hs | ⟨l, k, f, hw, hs⟩
  · exact .inl (hlink hs rfl)
  · rw [hlink hs rfl]
    by_cases hm : m = l
    · subst hm
      by_cases hl : m.toNat < s.links.length
      · rw [State.link_setLink_same k hl]
        exact .inr ⟨f, hw⟩
      · exact .inl (by rw [State.setLink, List.set_eq_of_length_le (Nat.not_lt.mp hl)])
    · exact .inl (State.link_setLink_other s k hm)

theorem getD_of_forall {α : Type} {P : α → Prop} {xs : List α} {d : α} (hd : P d) (h : ∀ x ∈ xs, P x) (i : Nat) :
    P (xs.getD i d) := by
  by_cases hi : i < xs.length
  · rw [List.getD_eq_getElem _ _ hi]
    exact h _ (List.getElem_mem hi)
  · rw [List.getD_eq_default _ _ (Nat.not_lt.mp hi)]
    exact hd

/-- A property of all links holds of `L[l]`, whatever the length of the list, if it holds of a link after reset. -/
theorem State.link_of_forall {s : State} {P : Link → Prop} (hreset : P (Link.atReset s.params.nSlots))
    (h : ∀ k ∈ s.links, P k) (l : LinkNo) : P (s.link l) :=
  getD_of_forall hreset h l.toNat

/-- A property of all links, kept by every write of a link, is kept by every effect. -/
theorem Effect.forall_links {s u : State} {i : Option Instr} {P : Link → Prop} (he : Effect s i u)
    (hreset : P (Link.atReset s.params.nSlots))
    (hwrite : ∀ {l : LinkNo} {k : Link} {f : State → State}, LinkWrite s i l k f → P (s.link l) → P k)
    (h : ∀ k ∈ s.links, P k) : ∀ k ∈ u.links, P k := by
  rcases he.links with hs | ⟨l, k, f, hw, hs⟩
  · exact hs ▸ h
  · exact hs ▸ State.forall_links_setLink h l (hwrite hw (State.link_of_forall hreset h l))

end Sys2Proof.Machine

namespace Sys2Proof.Machine

/-! ### The two sides of a link

A write is seen from the receive side or from the transmit side: it writes that side, or leaves it, or is LINIT. -/

theorem Link.writeLow_same (k : Link) (r : RegSel) (h : Half) :
    k.SameReceive (k.writeLow r h) ∧ k.SameTransmit (k.writeLow r h) := by
  unfold Link.writeLow
  split <;> simp [Link.SameReceive, Link.SameTransmit]

theorem Link.writeHigh_same (k : Link) (r : RegSel) (h : Half) :
    k.SameReceive (k.writeHigh r h) ∧ k.SameTransmit (k.writeHigh r h) := by
  unfold Link.writeHigh
  split <;> simp [Link.SameReceive, Link.SameTransmit]

theorem Link.emit_sameReceive {k k' : Link} {cap : Nat} {seq : List Byte} (h : k.emit cap seq = some k') :
    k.SameReceive k' := by
  rcases Link.emit_cases h with ⟨-, rfl⟩ | ⟨-, -, rfl⟩ <;> exact ⟨rfl, rfl, rfl, rfl⟩

theorem Link.accept_sameTransmit (k : Link) (cap : Nat) (d : Byte) : k.SameTransmit (k.accept cap d) := by
  unfold Link.accept
  split <;> exact ⟨rfl, rfl, rfl, rfl, rfl, rfl⟩

section
variable {s : State} {i : Option Instr} {l : LinkNo} {k : Link} {f : State → State}

theorem TransmitWrite.sameReceive (h : TransmitWrite s i l k f) : (s.link l).SameReceive k := by
  cases h with
  | opened l k _ _ hemit => exact (Link.emit_sameReceive hemit :)
  | sent l b k _ hemit => exact (Link.emit_sameReceive hemit :)
  | closed l k _ hemit => exact (Link.emit_sameReceive hemit :)
  | drainedMore | drainedLast => exact ⟨rfl, rfl, rfl, rfl⟩

theorem ReceiveWrite.sameTransmit (h : ReceiveWrite s i l k f) : (s.link l).SameTransmit k := by
  cases h with
  | data l b d => exact Link.accept_sameTransmit { s.link l with esc := false } s.params.slotCap d
  | _ => exact ⟨rfl, rfl, rfl, rfl, rfl, rfl⟩

theorem State.completeDrain_rxq (t : State) (l : LinkNo) : (t.completeDrain l).rxq = t.rxq := by
  unfold State.completeDrain
  split <;> rfl

theorem TransmitWrite.rxq (h : TransmitWrite s i l k f) (t : State) : (f t).rxq = t.rxq := by
  cases h with
  | drainedLast l => exact State.completeDrain_rxq t l
  | _ => rfl

theorem ReceiveWrite.txq (h : ReceiveWrite s i l k f) (t : State) : (f t).txq = t.txq := by
  cases h <;> rfl

/-- A write seen from the receive side. -/
theorem LinkWrite.receive_cases (h : LinkWrite s i l k f) :
    ((s.link l).SameReceive k ∧ ∀ t, (f t).rxq = t.rxq) ∨ ReceiveWrite s i l k f ∨
      (i = some (.linit l) ∧ (s.link l).busy = false ∧ k = (s.link l).reinit ∧ f = id) := by
  cases h with
  | receive h => exact .inr (.inl h)
  | transmit h => exact .inl ⟨h.sameReceive, h.rxq⟩
  | configLow l r v => exact .inl ⟨((s.link l).writeLow_same r v).1, fun _ => rfl⟩
  | configHigh l r v => exact .inl ⟨((s.link l).writeHigh_same r v).1, fun _ => rfl⟩
  | reinit l hquiet => exact .inr (.inr ⟨rfl, hquiet, rfl, rfl⟩)

/-- A write seen from the transmit side. -/
theorem LinkWrite.transmit_cases (h : LinkWrite s i l k f) :
    ((s.link l).SameTransmit k ∧ ∀ t, (f t).txq = t.txq) ∨ TransmitWrite s i l k f ∨
      (i = some (.linit l) ∧ (s.link l).busy = false ∧ k = (s.link l).reinit ∧ f = id) := by
  cases h with
  | receive h => exact .inl ⟨h.sameTransmit, h.txq⟩
  | transmit h => exact .inr (.inl h)
  | configLow l r v => exact .inl ⟨((s.link l).writeLow_same r v).2, fun _ => rfl⟩
  | configHigh l r v => exact .inl ⟨((s.link l).writeHigh_same r v).2, fun _ => rfl⟩
  | reinit l hquiet => exact .inr (.inr ⟨rfl, hquiet, rfl, rfl⟩)

end

/-! ### The slot storage (`10_state.md` R26, `41_receive.md` R144) -/

/-- A slot's bytes are in canonical form and below `cap`. -/
def Slot.StorageOk (cap : Nat) (v : Slot) : Prop := v.data.wf ∧ ∀ c ∈ v.data, c.1 < cap

theorem Slot.storageOk_atReset (cap : Nat) : Slot.atReset.StorageOk cap := ⟨Memory.nil_wf, by simp [Slot.atReset]⟩

/-- What a property of every slot needs for the slot list with one slot replaced. -/
theorem Link.forall_slots_setSlot {k : Link} {P : Slot → Prop} (h : ∀ v ∈ k.slots, P v) (i : SlotNo) {v : Slot}
    (hv : P v) : ∀ v' ∈ (k.setSlot i v).slots, P v' := by
  intro v' hv'
  rcases List.mem_or_eq_of_mem_set hv' with h' | rfl
  · exact h v' h'
  · exact hv

theorem Link.stored_storageOk {k : Link} {cap : Nat} (hs : k.stores cap = true) (d : Byte)
    (h : (k.slot k.act).StorageOk cap) : (k.stored d).StorageOk cap := by
  obtain ⟨hwf, hcells⟩ := h
  obtain ⟨-, -, hcnt⟩ := (Link.stores_iff k cap).mp hs
  refine ⟨Memory.write_wf hwf _ _, fun c hc => ?_⟩
  rcases Memory.mem_write hc with rfl | hc
  · exact hcnt
  · exact hcells c hc

theorem Link.accept_storageOk {k : Link} {cap : Nat} (d : Byte) (h : ∀ v ∈ k.slots, v.StorageOk cap) :
    ∀ v ∈ (k.accept cap d).slots, v.StorageOk cap := by
  rcases Bool.eq_false_or_eq_true (k.stores cap) with hs | hs
  · rw [Link.accept_stored hs]
    exact Link.forall_slots_setSlot h k.act
      (Link.stored_storageOk hs d (getD_of_forall (Slot.storageOk_atReset cap) h k.act.toNat))
  · rw [Link.accept_discarded hs]
    exact h

theorem LinkWrite.storageOk {s : State} {i : Option Instr} {l : LinkNo} {k : Link} {f : State → State}
    (hw : LinkWrite s i l k f) (h : ∀ v ∈ (s.link l).slots, v.StorageOk s.params.slotCap) :
    ∀ v ∈ k.slots, v.StorageOk s.params.slotCap := by
  have hslot (j : SlotNo) : ((s.link l).slot j).StorageOk s.params.slotCap :=
    getD_of_forall (Slot.storageOk_atReset _) h j.toNat
  rcases hw.receive_cases with ⟨⟨-, -, -, hslots⟩, -⟩ | hr | ⟨-, -, rfl, -⟩
  · exact hslots ▸ h
  · cases hr with
    | escape => exact h
    | data l b d => exact Link.accept_storageOk (k := { s.link l with esc := false }) d h
    | completed | dropped => exact Link.forall_slots_setSlot h _ (hslot (s.link l).act)
    | taken l j => exact Link.forall_slots_setSlot h j (hslot j)
    | released l j => exact Link.forall_slots_setSlot h j (hslot j)
  · intro v hv
    obtain ⟨u, hu, rfl⟩ := List.mem_map.mp hv
    exact h u hu

theorem Link.storageOk_atReset (n cap : Nat) : ∀ v ∈ (Link.atReset n).slots, v.StorageOk cap := by
  intro v hv
  obtain ⟨-, rfl⟩ := List.mem_replicate.mp hv
  exact Slot.storageOk_atReset cap

theorem Effect.storageOk {s u : State} {i : Option Instr} (he : Effect s i u) (h : s.StorageOk) : u.StorageOk := by
  unfold State.StorageOk
  rw [he.params]
  exact he.forall_links (Link.storageOk_atReset _ s.params.slotCap) LinkWrite.storageOk h

theorem State.applyReset_forall_links {s : State} {P : Link → Prop} (h : P (Link.atReset s.params.nSlots)) :
    ∀ k ∈ s.applyReset.links, P k := by
  intro k hk
  obtain ⟨-, rfl⟩ := List.mem_replicate.mp hk
  exact h

/-- Settles O14: a slot is written at an index below SLOT_CAP, in canonical form, or keeps its bytes. -/
theorem stepKeepsStorageCanonical : Obligations.StepKeepsStorageCanonical := by
  intro s t hs h
  refine step_keeps (P := State.StorageOk) ?_ Effect.storageOk ?_ hs h
  · rintro s t ⟨e, a, r, n, rfl⟩ hs
    exact hs
  · intro s _
    exact State.applyReset_forall_links (Link.storageOk_atReset _ s.params.slotCap)

end Sys2Proof.Machine

namespace Sys2Proof.Machine

/-! ### The output history (`10_state.md` R47) -/

theorem Link.emit_wire {k k' : Link} {cap : Nat} {seq : List Byte} (h : k.emit cap seq = some k') :
    k.wire <+: k'.wire := by
  rcases Link.emit_cases h with ⟨-, rfl⟩ | ⟨-, -, rfl⟩
  · exact List.prefix_append _ _
  · exact List.prefix_rfl

theorem TransmitWrite.wire {s : State} {i : Option Instr} {l : LinkNo} {k : Link} {f : State → State}
    (h : TransmitWrite s i l k f) : (s.link l).wire <+: k.wire := by
  cases h with
  | opened l k _ _ hemit => exact (Link.emit_wire hemit :)
  | sent l b k _ hemit => exact (Link.emit_wire hemit :)
  | closed l k _ hemit => exact (Link.emit_wire hemit :)
  | drainedMore | drainedLast => exact List.prefix_append _ _

theorem LinkWrite.wire {s : State} {i : Option Instr} {l : LinkNo} {k : Link} {f : State → State}
    (h : LinkWrite s i l k f) : (s.link l).wire <+: k.wire := by
  rcases h.transmit_cases with ⟨⟨-, -, -, -, -, hwire⟩, -⟩ | ht | ⟨-, -, rfl, -⟩
  · exact hwire ▸ List.prefix_rfl
  · exact ht.wire
  · exact List.prefix_rfl

theorem Effect.wire {s u : State} {i : Option Instr} (he : Effect s i u) (l : LinkNo) :
    (s.link l).wire <+: (u.link l).wire := by
  rcases he.link l with hu | ⟨f, hw⟩
  · exact hu ▸ List.prefix_rfl
  · exact hw.wire

theorem State.SameHardware.link {s t : State} (h : s.SameHardware t) (l : LinkNo) : t.link l = s.link l := by
  obtain ⟨e, a, r, n, rfl⟩ := h
  rfl

/-- Settles O22: every write of a link extends its wire or leaves it. -/
theorem wireOnlyGrows : Obligations.WireOnlyGrows := by
  intro s t l h hreset
  rcases step_effect h with ⟨rest, hp, -⟩ | ⟨s₁, i, u, h₁, he, hu⟩
  · exact absurd hp (hreset rest)
  · obtain ⟨seq, hseq⟩ := he.wire l
    exact ⟨seq, by rw [hu.link, ← hseq, h₁.link]⟩

/-! ### Reading back (`00_scope.md` R14) -/

theorem State.Shape.slots_length {s : State} (hs : s.Shape) {l : LinkNo} (hl : l.toNat < s.params.nLinks) :
    (s.link l).slots.length = s.params.nSlots := by
  have ⟨_, _, hk⟩ := hs
  exact (hk _ (State.link_mem hs hl)).1

theorem State.slot_setSlot {s : State} (hs : s.Shape) {l : LinkNo} {p : SlotNo} (hl : l.toNat < s.params.nLinks)
    (hp : p.toNat < s.params.nSlots) (v : Slot) (m : LinkNo) (j : SlotNo) :
    ((s.setSlot l p v).link m).slot j = if m = l ∧ j = p then v else (s.link m).slot j := by
  by_cases hm : m = l
  · subst hm
    rw [State.setSlot, State.link_setLink_same _ (State.lt_links_length hs hl)]
    by_cases hj : j = p
    · subst hj
      rw [Link.slot_setSlot_same v (hs.slots_length hl ▸ hp), if_pos ⟨rfl, rfl⟩]
    · rw [Link.slot_setSlot_other _ v hj, if_neg (hj ·.2)]
  · rw [State.setSlot, State.link_setLink_other s _ hm, if_neg (hm ·.1)]

/-- Settles O60, by what each storage operation reads back at the written place and at another. -/
theorem storageReadsBackWhatWasWritten : Obligations.StorageReadsBackWhatWasWritten := by
  refine ⟨fun m i j v => ?_, fun m i v h => Memory.write_wf h i v, fun s l m k hs hl => ?_,
    fun s l m p j v hs hl hp => State.slot_setSlot hs hl hp v m j⟩
  · simp only [Memory.read_write, eq_comm]
  · by_cases hm : m = l
    · rw [if_pos hm, hm, State.link_setLink_same k (State.lt_links_length hs hl)]
    · rw [if_neg hm, State.link_setLink_other s k hm]

/-! ### The ownership of a slot (`10_state.md` R27) -/

theorem Link.slot_congr {k k' : Link} (h : k'.slots = k.slots) (j : SlotNo) : k'.slot j = k.slot j := by
  rw [Link.slot, Link.slot, h]

/-- A slot after the write of one slot of its link is the one written, or untouched. -/
theorem Link.slot_setSlot_cases (k : Link) (i : SlotNo) (v : Slot) (j : SlotNo) :
    (j = i ∧ (k.setSlot i v).slot j = v) ∨ (k.setSlot i v).slot j = k.slot j := by
  by_cases hj : j = i
  · subst hj
    by_cases hlt : j.toNat < k.slots.length
    · exact .inl ⟨rfl, Link.slot_setSlot_same v hlt⟩
    · exact .inr (Link.slot_congr (List.set_eq_of_length_le (Nat.not_lt.mp hlt)) j)
  · exact .inr (Link.slot_setSlot_other k v hj)

/-- An accepted byte changes at most the active slot, and not its owner (R144). -/
theorem Link.slot_accept_cases (k : Link) (cap : Nat) (d : Byte) (j : SlotNo) :
    (j = k.act ∧ (k.accept cap d).slot j = k.stored d) ∨ (k.accept cap d).slot j = k.slot j := by
  rcases Bool.eq_false_or_eq_true (k.stores cap) with hs | hs
  · rw [Link.accept_stored hs]
    exact Link.slot_setSlot_cases k k.act (k.stored d) j
  · rw [Link.accept_discarded hs]
    exact .inr rfl

theorem Link.slot_reinit (k : Link) (j : SlotNo) : k.reinit.slot j = (k.slot j).emptied :=
  List.getD_map k.slots Slot.atReset Slot.emptied

/-- A quiescent link's slots are all producer-owned (R245). -/
theorem Link.own_of_quiet {k : Link} (h : k.busy = false) (j : Nat) :
    (k.slots.getD j Slot.atReset).own = .prod := by
  refine getD_of_forall (P := fun v : Slot => v.own = .prod) rfl (fun v hv => ?_) j
  simp only [Link.busy, Bool.or_eq_false_iff, List.any_eq_false] at h
  simpa using h.2 v hv

theorem Link.busy_atReset (n : Nat) : (Link.atReset n).busy = false := by simp [Link.busy, Link.atReset, Slot.atReset]

/-- A slot that is not producer-owned is one the link has. -/
theorem Link.slot_lt_of_own {k : Link} {j : SlotNo} (h : (k.slot j).own ≠ .prod) : j.toNat < k.slots.length := by
  by_contra hj
  exact h (by rw [Link.slot, List.getD_eq_default _ _ (Nat.not_lt.mp hj)]; rfl)

/-- A frame is being received only into a producer-owned slot (R143). -/
theorem State.Inv.own_of_cnt {s : State} (hs : s.Inv) {l : LinkNo} (hl : l.toNat < s.params.nLinks)
    (hcnt : (s.link l).cnt ≠ 0) : ((s.link l).slot (s.link l).act).own = .prod := by
  have hk := State.link_mem hs.shape hl
  have ⟨_, _, hlinks⟩ := hs.shape
  obtain ⟨-, hact⟩ := hlinks _ hk
  obtain ⟨-, -, -, -, hidle, -⟩ := hs.receive _ hk _ hact
  exact not_not.mp fun hown => hcnt (hidle hown rfl)

/-- A queued descriptor names a queued slot (R226). -/
theorem State.Inv.own_of_mem {s : State} (hs : s.Inv) {d : Descriptor} (hd : d ∈ s.rxq) :
    ((s.link d.link).slot d.slot).own = .queued := by
  have ⟨_, hmem, _⟩ := hs.descriptors
  exact (hmem d hd).2.2

/-- What command `i` may do to slot `j` of link `l`, from `v` to `v'`: the edges of R27. -/
def OwnershipEdge (i : Instr) (l : LinkNo) (j : SlotNo) (v v' : Slot) : Prop :=
  v' = v ∨
  (v.own = .prod ∧ v'.own = .prod ∧ ((∃ b, i = .rxb l b) ∨ i = .linit l)) ∨
  (v.own = .prod ∧ v'.own = .queued ∧ ∃ b, i = .rxb l b) ∨
  (v.own = .queued ∧ v'.own = .held ∧ i = .rxqp) ∨
  (v.own = .held ∧ v'.own = .prod ∧ i = .slrl l j)

section
variable {s : State} {i : Instr} {l : LinkNo} {k : Link} {f : State → State}

theorem ReceiveWrite.ownershipEdge (hs : s.Inv) (h : ReceiveWrite s (some i) l k f) (j : SlotNo) :
    OwnershipEdge i l j ((s.link l).slot j) (k.slot j) := by
  cases h with
  | escape => exact .inl rfl
  | data l b d hown =>
    rcases Link.slot_accept_cases { s.link l with esc := false } s.params.slotCap d j with ⟨rfl, hj⟩ | hj
    · exact .inr (.inl ⟨hown, hj ▸ hown, .inl ⟨b, rfl⟩⟩)
    · exact .inl hj
  | completed l b hl hcnt =>
    rcases (s.link l).slot_setSlot_cases (s.link l).act (s.link l).completed j with ⟨rfl, hj⟩ | hj
    · exact .inr (.inr (.inl ⟨hs.own_of_cnt hl hcnt, congrArg Slot.own hj, b, rfl⟩))
    · exact .inl hj
  | dropped l b hl hcnt =>
    rcases (s.link l).slot_setSlot_cases (s.link l).act ((s.link l).slot (s.link l).act).emptied j with
      ⟨rfl, hj⟩ | hj
    · have hown := hs.own_of_cnt hl hcnt
      exact .inr (.inl ⟨hown, (congrArg Slot.own hj).trans hown, .inl ⟨b, rfl⟩⟩)
    · exact .inl hj
  | taken l p rest hrxq =>
    rcases (s.link l).slot_setSlot_cases p { (s.link l).slot p with own := .held } j with ⟨rfl, hj⟩ | hj
    · have hown := hs.own_of_mem (d := { link := l, slot := j }) (by simp [hrxq])
      exact .inr (.inr (.inr (.inl ⟨hown, congrArg Slot.own hj, rfl⟩)))
    · exact .inl hj
  | released l p hown =>
    rcases (s.link l).slot_setSlot_cases p { ((s.link l).slot p).emptied with own := .prod } j with ⟨rfl, hj⟩ | hj
    · exact .inr (.inr (.inr (.inr ⟨hown, congrArg Slot.own hj, rfl⟩)))
    · exact .inl hj

theorem LinkWrite.ownershipEdge (hs : s.Inv) (h : LinkWrite s (some i) l k f) (j : SlotNo) :
    OwnershipEdge i l j ((s.link l).slot j) (k.slot j) := by
  rcases h.receive_cases with ⟨⟨-, -, -, hslots⟩, -⟩ | hr | ⟨hi, hquiet, rfl, -⟩
  · exact .inl (Link.slot_congr hslots j)
  · exact hr.ownershipEdge hs j
  · have hown : ((s.link l).slot j).own = .prod := Link.own_of_quiet hquiet j.toNat
    exact .inr (.inl ⟨hown, by rw [Link.slot_reinit]; exact hown, .inr (Option.some.inj hi)⟩)

end

/-- Settles O18: a command's write of a link takes each slot along one edge of R27. -/
theorem slotOwnershipLifeCycle : Obligations.SlotOwnershipLifeCycle := by
  intro i s t hs h l j
  obtain ⟨u, he, hu⟩ := exec_effect h
  rw [hu.link]
  rcases he.link l with hl | ⟨f, hw⟩
  · exact .inl (congrArg (Link.slot · j) hl)
  · exact hw.ownershipEdge hs j

end Sys2Proof.Machine

namespace Sys2Proof.Machine

/-! ### Sizes (`10_state.md` R20, R23, R26) -/

/-- The link has as many slots as the parameters say, and its active slot is one of them. -/
def Link.ShapeOk (p : Params) (k : Link) : Prop := k.slots.length = p.nSlots ∧ k.act.toNat < p.nSlots

theorem Link.accept_shapeOk {p : Params} {k : Link} (cap : Nat) (d : Byte) (h : k.ShapeOk p) :
    (k.accept cap d).ShapeOk p := by
  unfold Link.accept
  split
  · obtain ⟨hlen, hact⟩ := h
    exact ⟨(Link.slots_length_setSlot k _ _).trans hlen, hact⟩
  · exact h

theorem Link.nextFrame_act_lt (k : Link) {n : Nat} (hn : 0 < n) : (k.nextFrame n).act.toNat < n := by
  rw [Link.nextFrame_act, BitVec.toNat_ofNat]
  exact Nat.lt_of_le_of_lt (Nat.mod_le _ _) (Nat.mod_lt _ hn)

theorem LinkWrite.shapeOk {s : State} {i : Option Instr} {l : LinkNo} {k : Link} {f : State → State}
    (hp : s.params.Legal) (hw : LinkWrite s i l k f) (h : (s.link l).ShapeOk s.params) : k.ShapeOk s.params := by
  obtain ⟨-, ⟨hn, -⟩, -⟩ := hp
  have ⟨hlen, hact⟩ := h
  have hset (j : SlotNo) (v : Slot) : ((s.link l).setSlot j v).slots.length = s.params.nSlots :=
    (Link.slots_length_setSlot _ j v).trans hlen
  rcases hw.receive_cases with ⟨⟨-, -, hact', hslots⟩, -⟩ | hr | ⟨-, -, rfl, -⟩
  · exact ⟨hslots ▸ hlen, hact' ▸ hact⟩
  · cases hr with
    | escape => exact h
    | data l b d => exact Link.accept_shapeOk (k := { s.link l with esc := false }) _ d h
    | completed | dropped => exact ⟨hset _ _, Link.nextFrame_act_lt _ hn⟩
    | taken | released => exact ⟨hset _ _, hact⟩
  · exact ⟨(List.length_map _).trans hlen, hn⟩

theorem Link.shapeOk_atReset {p : Params} (hp : p.Legal) : (Link.atReset p.nSlots).ShapeOk p := by
  obtain ⟨-, ⟨hn, -⟩, -⟩ := hp
  exact ⟨List.length_replicate, hn⟩

theorem Effect.links_length {s u : State} {i : Option Instr} (he : Effect s i u) :
    u.links.length = s.links.length := by
  rcases he.links with hs | ⟨l, k, f, -, hs⟩
  · rw [hs]
  · rw [hs, State.setLink_links, List.length_set]

theorem Effect.shape {s u : State} {i : Option Instr} (he : Effect s i u) (hs : s.Shape) : u.Shape := by
  obtain ⟨hp, hlen, hk⟩ := hs
  unfold State.Shape
  rw [he.params, he.links_length]
  exact ⟨hp, hlen, he.forall_links (Link.shapeOk_atReset hp) (LinkWrite.shapeOk hp) hk⟩

/-! ### The queues (`43_queues.md` R225) -/

theorem State.completeDrain_txq_cases (s : State) (l : LinkNo) :
    (s.completeDrain l).txq = s.txq ∨ (s.txq.length < s.params.txqCap ∧ (s.completeDrain l).txq = s.txq ++ [l]) := by
  by_cases hroom : s.txq.length < s.params.txqCap
  · exact .inr ⟨hroom, congrArg State.txq (State.completeDrain_room hroom l)⟩
  · exact .inl (by rw [State.completeDrain_full (Nat.not_lt.mp hroom), State.bumpTxqDrop_txq])

/-- The RX Descriptor Queue after an effect: the same, one entry pushed with room for it, or its head popped. -/
theorem Effect.rxq_cases {s u : State} {i : Option Instr} (he : Effect s i u) :
    u.rxq = s.rxq ∨ (∃ d, s.rxq.length < s.params.rxqCap ∧ u.rxq = s.rxq ++ [d]) ∨ ∃ d, s.rxq = d :: u.rxq := by
  cases he with
  | write hw =>
    rcases hw.receive_cases with ⟨-, hrxq⟩ | hr | ⟨-, -, -, rfl⟩
    · exact .inl (hrxq _)
    · cases hr with
      | completed l b _ _ hroom => exact .inr (.inl ⟨_, hroom, rfl⟩)
      | taken l p rest hrxq => exact .inr (.inr ⟨_, hrxq⟩)
      | _ => exact .inl rfl
    · exact .inl rfl
  | _ => exact .inl rfl

/-- The TX Notification Queue after an effect: the same, one existing link pushed with room for it, or its head
popped. -/
theorem Effect.txq_cases {s u : State} {i : Option Instr} (he : Effect s i u) :
    u.txq = s.txq ∨
    (∃ l, l.toNat < s.params.nLinks ∧ s.txq.length < s.params.txqCap ∧ u.txq = s.txq ++ [l]) ∨
    ∃ l, s.txq = l :: u.txq := by
  cases he with
  | @write _ l _ _ hw =>
    rcases hw.transmit_cases with ⟨-, htxq⟩ | ht | ⟨-, -, -, rfl⟩
    · exact .inl (htxq _)
    · cases ht with
      | drainedLast _ c hen =>
        obtain ⟨hl, -⟩ := (State.drainEnabled_iff s l).mp hen
        rcases State.completeDrain_txq_cases (s.setLink l _) l with h | ⟨hroom, h⟩
        · exact .inl h
        · exact .inr (.inl ⟨l, hl, hroom, h⟩)
      | _ => exact .inl rfl
    · exact .inl rfl
  | reclaimed l rest htxq => exact .inr (.inr ⟨l, htxq⟩)
  | _ => exact .inl rfl

theorem Link.emit_ring_le {k k' : Link} {cap : Nat} {seq : List Byte} (h : k.emit cap seq = some k')
    (hk : k.ring.length ≤ cap) : k'.ring.length ≤ cap := by
  rcases Link.emit_cases h with ⟨-, rfl⟩ | ⟨-, hfit, rfl⟩
  · exact hk
  · simpa using hfit

theorem LinkWrite.ring_le {s : State} {i : Option Instr} {l : LinkNo} {k : Link} {f : State → State}
    (hw : LinkWrite s i l k f) (h : (s.link l).ring.length ≤ s.params.txRingCap) :
    k.ring.length ≤ s.params.txRingCap := by
  rcases hw.transmit_cases with ⟨⟨-, -, -, -, hring, -⟩, -⟩ | ht | ⟨-, -, rfl, -⟩
  · exact hring ▸ h
  · cases ht with
    | opened l k _ _ hemit => exact (Link.emit_ring_le hemit h :)
    | sent l b k _ hemit => exact (Link.emit_ring_le hemit h :)
    | closed l k _ hemit => exact (Link.emit_ring_le hemit h :)
    | drainedMore l c d r _ hring =>
      rw [hring] at h
      exact Nat.le_of_succ_le h
    | drainedLast => exact Nat.zero_le _
  · exact h

theorem Effect.queuesBounded {s u : State} {i : Option Instr} (he : Effect s i u) (h : s.QueuesBounded) :
    u.QueuesBounded := by
  obtain ⟨hr, ht, hk⟩ := h
  unfold State.QueuesBounded
  rw [he.params]
  refine ⟨?_, ?_, he.forall_links (P := fun k => k.ring.length ≤ s.params.txRingCap) (Nat.zero_le _)
    LinkWrite.ring_le hk⟩
  · rcases he.rxq_cases with hq | ⟨d, hroom, hq⟩ | ⟨d, hq⟩
    · exact hq ▸ hr
    · rw [hq, List.length_append]
      exact hroom
    · rw [hq] at hr
      exact Nat.le_of_succ_le hr
  · rcases he.txq_cases with hq | ⟨l, -, hroom, hq⟩ | ⟨l, hq⟩
    · exact hq ▸ ht
    · rw [hq, List.length_append]
      exact hroom
    · rw [hq] at ht
      exact Nat.le_of_succ_le ht

/-! ### The transmit state (`10_state.md` R33, `42_transmit.md` R172, R177, R180) -/

theorem Link.transmitOk_congr {k k' : Link} (h : k.SameTransmit k') (hk : k.TransmitOk) : k'.TransmitOk := by
  obtain ⟨htxo, -, htxm, harm, hring, -⟩ := h
  unfold Link.TransmitOk
  rwa [htxo, htxm, harm, hring]

theorem Link.TransmitOk.opened {k k' : Link} {cap : Nat} (h : k.TransmitOk) (htxo : k.txo = false)
    (harm : k.arm = false) (hemit : { k with txm := k.txMode, fcs := fcsSeed }.emit cap [flagByte] = some k') :
    { k' with txo := true }.TransmitOk := by
  obtain ⟨-, -, hidle, -⟩ := h
  rcases Link.emit_cases hemit with ⟨-, rfl⟩ | ⟨htxm, -, rfl⟩
  · simp [Link.TransmitOk, harm, hidle htxo harm]
  · simp [Link.TransmitOk, harm, show k.txMode = true from htxm]

theorem Link.TransmitOk.sent {k k' : Link} {cap : Nat} {seq : List Byte} (v : Half) (h : k.TransmitOk)
    (htxo : k.txo = true) (hemit : k.emit cap seq = some k') : { k' with fcs := v }.TransmitOk := by
  obtain ⟨hboth, -, -, hpolled⟩ := h
  have harm : k.arm = false := by simpa [htxo] using hboth
  rcases Link.emit_cases hemit with ⟨htxm, rfl⟩ | ⟨htxm, -, rfl⟩
  · simp [Link.TransmitOk, htxo, harm, hpolled htxm]
  · simp [Link.TransmitOk, htxo, harm, htxm]

theorem Link.TransmitOk.closed {k k' : Link} {cap : Nat} (f : Half) (a : Word) (h : k.TransmitOk)
    (htxo : k.txo = true) (hemit : k.emit cap (frameTail f a) = some k') :
    { k' with txo := false, arm := if k'.txm = true then true else k'.arm }.TransmitOk := by
  obtain ⟨hboth, -, -, hpolled⟩ := h
  have harm : k.arm = false := by simpa [htxo] using hboth
  rcases Link.emit_cases hemit with ⟨htxm, rfl⟩ | ⟨htxm, -, rfl⟩
  · simp [Link.TransmitOk, harm, htxm, hpolled htxm]
  · simp [Link.TransmitOk, htxm, frameTail]

theorem LinkWrite.transmitOk {s : State} {i : Option Instr} {l : LinkNo} {k : Link} {f : State → State}
    (hw : LinkWrite s i l k f) (h : (s.link l).TransmitOk) : k.TransmitOk := by
  rcases hw.transmit_cases with ⟨hsame, -⟩ | ht | ⟨-, hquiet, rfl, -⟩
  · exact Link.transmitOk_congr hsame h
  · cases ht with
    | opened l k htxo harm hemit => exact h.opened htxo harm hemit
    | sent l b k htxo hemit => exact h.sent _ htxo hemit
    | closed l k htxo hemit => exact h.closed _ _ htxo hemit
    | drainedMore l c d r hen =>
      obtain ⟨-, harm, -⟩ := (State.drainEnabled_iff s l).mp hen
      obtain ⟨hboth, harmed, -⟩ := h
      obtain ⟨htxm, -⟩ := harmed harm
      exact ⟨hboth, fun _ => ⟨htxm, by simp⟩, fun _ h => absurd (harm.symm.trans h) (by simp),
        fun h => absurd (htxm.symm.trans h) (by simp)⟩
    | drainedLast => simp [Link.TransmitOk]
  · simp only [Link.busy, Bool.or_eq_false_iff] at hquiet
    obtain ⟨⟨htxo, harm⟩, -⟩ := hquiet
    obtain ⟨-, -, hidle, -⟩ := h
    simp [Link.TransmitOk, htxo, harm, hidle htxo harm]

theorem Link.transmitOk_atReset (n : Nat) : (Link.atReset n).TransmitOk := by simp [Link.TransmitOk, Link.atReset]

/-! ### The fault latch (`60_exceptions.md` R271) -/

theorem FaultCode.code_range (c : FaultCode) : 1 ≤ c.code.toNat ∧ c.code.toNat ≤ 0x0A := by
  cases c <;> decide

theorem Effect.latchOk {s u : State} {i : Option Instr} (he : Effect s i u) (h : s.LatchOk) : u.LatchOk := by
  cases he with
  | latched _ c w => exact ⟨fun hv => absurd hv (by simp [State.latch]), fun _ => c.code_range⟩
  | write hw =>
    obtain ⟨-, -, hvalid, hcode, hcmd⟩ := hw.frame (s.setLink _ _)
    unfold State.LatchOk
    rw [hvalid, hcode, hcmd]
    exact h
  | _ => exact h

end Sys2Proof.Machine

namespace Sys2Proof.Machine

/-! ### The receive state (`10_state.md` R22, R26 to R29, `41_receive.md` R143 to R146) -/

/-- Every slot of the link hangs together with the link's receive state. -/
def Link.ReceiveOk (p : Params) (k : Link) : Prop :=
  ∀ i < p.nSlots, k.SlotReceiveOk p.slotCap i (k.slots.getD i Slot.atReset)

theorem sat16_toNat (x : Nat) : (sat16 x).toNat = min x 0xFFFF := by
  rw [sat16, BitVec.toNat_ofNat]
  omega

/-- An empty producer-owned slot hangs together with any link. -/
theorem Link.slotReceiveOk_of_empty (k : Link) (cap i : Nat) {v : Slot} (hown : v.own = .prod) (hlen : v.len = 0)
    (hfill : v.fill = 0) : k.SlotReceiveOk cap i v := by
  simp [Link.SlotReceiveOk, hown, hlen, hfill]

theorem Link.receiveOk_congr {p : Params} {k k' : Link} (h : k.SameReceive k') (hk : k.ReceiveOk p) :
    k'.ReceiveOk p := by
  obtain ⟨-, hcnt, hact, hslots⟩ := h
  unfold Link.ReceiveOk Link.SlotReceiveOk
  rwa [hcnt, hact, hslots]

theorem Link.getD_setSlot {k : Link} {j : SlotNo} (v : Slot) (hj : j.toNat < k.slots.length) (i : Nat) :
    (k.setSlot j v).slots.getD i Slot.atReset = if i = j.toNat then v else k.slots.getD i Slot.atReset := by
  by_cases hi : i = j.toNat
  · simp [hi, hj]
  · simp [hi, Ne.symm hi]

/-- What the receive state needs when one slot is written: the slot written hangs together, and so does every other
slot that did before. -/
theorem Link.ReceiveOk.setSlot {p : Params} {k k' : Link} {j : SlotNo} {v : Slot} (h : k.ReceiveOk p)
    (hj : j.toNat < k.slots.length) (hslots : k'.slots = (k.setSlot j v).slots)
    (hv : k'.SlotReceiveOk p.slotCap j.toNat v)
    (hother : ∀ i w, i ≠ j.toNat → k.SlotReceiveOk p.slotCap i w → k'.SlotReceiveOk p.slotCap i w) :
    k'.ReceiveOk p := by
  intro i hi
  rw [hslots, Link.getD_setSlot v hj]
  by_cases hij : i = j.toNat
  · rw [if_pos hij, hij]
    exact hv
  · rw [if_neg hij]
    exact hother i _ hij (h i hi)

/-- The count of the frame in progress concerns the active slot only. -/
theorem Link.SlotReceiveOk.countByte {k : Link} {cap i : Nat} {v : Slot} (h : k.SlotReceiveOk cap i v)
    (hact : i = k.act.toNat → v.own = .prod) : k.countByte.SlotReceiveOk cap i v := by
  obtain ⟨hprod, hcons, hidle, hfill, -, hcap, hread⟩ := h
  refine ⟨hprod, hcons, hidle, fun hown hi => ?_, fun hown hi => absurd (hact hi) hown, hcap, hread⟩
  have := hfill hown hi
  rw [Link.countByte_cnt, sat16_toNat]
  omega

/-- The byte is stored where `fill` points, so what `fill` counts stays written (R144). -/
theorem Link.stored_slotReceiveOk {k : Link} {cap : Nat} (d : Byte) (hcap : cap ≤ 65535) (hs : k.stores cap = true)
    (hown : (k.slot k.act).own = .prod) (h : k.SlotReceiveOk cap k.act.toNat (k.slot k.act)) :
    k.countByte.SlotReceiveOk cap k.act.toNat (k.stored d) := by
  obtain ⟨hprod, -, -, -, -, -, hread⟩ := h
  obtain ⟨hfill, -, hcnt⟩ := (Link.stores_iff k cap).mp hs
  have hsucc : (k.stored d).fill.toNat = k.cnt.toNat + 1 := by
    have hone : (1 : Half).toNat = 1 := rfl
    rw [Link.stored_fill, hfill, BitVec.toNat_add, hone]
    exact Nat.mod_eq_of_lt (by omega)
  refine ⟨fun _ => hprod hown, fun h => absurd hown h, fun _ h => absurd rfl h, fun _ _ => ?_,
    fun h => absurd hown h, by omega, fun n hn => ?_⟩
  · rw [hsucc, Link.countByte_cnt, sat16_toNat]
    omega
  · rw [Link.stored_data, Memory.read_write]
    split
    · simp
    · exact hread n (by rw [hfill]; omega)

theorem Link.accept_receiveOk {p : Params} {k : Link} (d : Byte) (hp : p.Legal) (hshape : k.ShapeOk p)
    (hown : (k.slot k.act).own = .prod) (h : k.ReceiveOk p) : (k.accept p.slotCap d).ReceiveOk p := by
  obtain ⟨-, -, ⟨-, hcap⟩, -⟩ := hp
  obtain ⟨hlen, hact⟩ := hshape
  rcases Bool.eq_false_or_eq_true (k.stores p.slotCap) with hs | hs
  · rw [Link.accept_stored hs]
    exact h.setSlot (hlen ▸ hact) rfl (Link.stored_slotReceiveOk d hcap hs hown (h _ hact))
      fun i w hi hw => hw.countByte fun hi' => absurd hi' hi
  · rw [Link.accept_discarded hs]
    exact fun i hi => (h i hi).countByte fun hi' => hi' ▸ hown

/-- A slot other than the active one is not being filled, so the next frame may start in any slot. -/
theorem Link.SlotReceiveOk.nextFrame {k : Link} {cap i : Nat} {v : Slot} (n : Nat) (h : k.SlotReceiveOk cap i v)
    (hi : i ≠ k.act.toNat) : (k.nextFrame n).SlotReceiveOk cap i v := by
  obtain ⟨hprod, hcons, hidle, -, -, hcap, hread⟩ := h
  exact ⟨hprod, hcons, fun hown _ => hidle hown hi, fun hown _ => by simp [hidle hown hi], fun _ _ => rfl, hcap, hread⟩

theorem Link.completed_slotReceiveOk {k : Link} {cap : Nat} (n : Nat) (hcnt : k.cnt ≠ 0)
    (hown : (k.slot k.act).own = .prod) (h : k.SlotReceiveOk cap k.act.toNat (k.slot k.act)) :
    (k.nextFrame n).SlotReceiveOk cap k.act.toNat k.completed := by
  obtain ⟨-, -, -, hfill, -, hcap, hread⟩ := h
  have hne : ¬ k.completed.own = .prod := by simp
  exact ⟨fun h => absurd h hne, fun _ => ⟨hcnt, hfill hown rfl⟩, fun h => absurd h hne, fun h => absurd h hne,
    fun _ _ => rfl, hcap, hread⟩

/-- A queued slot stays as it is when it becomes held (R200). -/
theorem Link.SlotReceiveOk.taken {k : Link} {cap i : Nat} {v : Slot} (h : k.SlotReceiveOk cap i v)
    (hown : v.own ≠ .prod) : k.SlotReceiveOk cap i { v with own := .held } := by
  obtain ⟨-, hcons, -, -, hidle, hcap, hread⟩ := h
  exact ⟨nofun, fun _ => hcons hown, nofun, nofun, fun _ => hidle hown, hcap, hread⟩

/-- LINIT leaves every slot empty and producer-owned (R245). -/
theorem Link.reinit_receiveOk {k : Link} (p : Params) (hquiet : k.busy = false) : k.reinit.ReceiveOk p := by
  intro i _
  have hslot : k.reinit.slots.getD i Slot.atReset = (k.slots.getD i Slot.atReset).emptied :=
    List.getD_map k.slots Slot.atReset Slot.emptied
  rw [hslot]
  exact Link.slotReceiveOk_of_empty _ _ i (Link.own_of_quiet hquiet i) rfl rfl

theorem State.Inv.link_shapeOk {s : State} (hs : s.Inv) (l : LinkNo) : (s.link l).ShapeOk s.params := by
  have ⟨hp, _, hk⟩ := hs.shape
  exact State.link_of_forall (Link.shapeOk_atReset hp) hk l

theorem Link.receiveOk_atReset (p : Params) : (Link.atReset p.nSlots).ReceiveOk p := by
  intro i hi
  have hslot : (Link.atReset p.nSlots).slots.getD i Slot.atReset = Slot.atReset := by simp [Link.atReset, hi]
  rw [hslot]
  exact Link.slotReceiveOk_of_empty _ _ i rfl rfl rfl

theorem LinkWrite.receiveOk {s : State} {i : Option Instr} {l : LinkNo} {k : Link} {f : State → State} (hs : s.Inv)
    (hw : LinkWrite s i l k f) (h : (s.link l).ReceiveOk s.params) : k.ReceiveOk s.params := by
  have ⟨hp, _⟩ := hs.shape
  have ⟨hlen, hact⟩ := hs.link_shapeOk l
  have hactLen : (s.link l).act.toNat < (s.link l).slots.length := hlen ▸ hact
  rcases hw.receive_cases with ⟨hsame, -⟩ | hr | ⟨-, hquiet, rfl, -⟩
  · exact Link.receiveOk_congr hsame h
  · cases hr with
    | escape => exact h
    | data l b d hown =>
      exact Link.accept_receiveOk (k := { s.link l with esc := false }) d hp (hs.link_shapeOk l) hown h
    | completed l b hl hcnt =>
      exact h.setSlot hactLen rfl (Link.completed_slotReceiveOk _ hcnt (hs.own_of_cnt hl hcnt) (h _ hact))
        fun j w hj hw => hw.nextFrame _ hj
    | dropped l b hl hcnt =>
      exact h.setSlot hactLen rfl (Link.slotReceiveOk_of_empty _ _ _ (hs.own_of_cnt hl hcnt) rfl rfl)
        fun j w hj hw => hw.nextFrame _ hj
    | taken l j rest hrxq =>
      have ⟨_, hmem, _⟩ := hs.descriptors
      obtain ⟨-, hj, hown⟩ := hmem { link := l, slot := j } (by simp [hrxq])
      refine h.setSlot (hlen ▸ hj) rfl (Link.SlotReceiveOk.taken (h _ hj) ?_) fun _ _ _ hw => hw
      exact fun hprod => absurd (hown.symm.trans hprod) (by simp)
    | released l j hown =>
      have hj : j.toNat < (s.link l).slots.length := Link.slot_lt_of_own (by simp [hown])
      exact h.setSlot hj rfl (Link.slotReceiveOk_of_empty _ _ _ rfl rfl rfl) fun _ _ _ hw => hw
  · exact Link.reinit_receiveOk _ hquiet

theorem Effect.receiveOk {s u : State} {i : Option Instr} (he : Effect s i u) (hs : s.Inv) : u.ReceiveOk := by
  unfold State.ReceiveOk
  rw [he.params]
  exact he.forall_links (Link.receiveOk_atReset s.params) (LinkWrite.receiveOk hs) hs.receive

/-! ### The descriptors (`43_queues.md` R226) -/

/-- The ownership of the slot a descriptor names. -/
def State.ownAt (s : State) (d : Descriptor) : Own := ((s.link d.link).slot d.slot).own

theorem State.link_lt_of_own {s : State} {d : Descriptor} (h : s.ownAt d ≠ .prod) :
    d.link.toNat < s.links.length := by
  by_contra hl
  refine h ?_
  rw [State.ownAt, State.link, List.getD_eq_default _ _ (Nat.not_lt.mp hl)]
  exact Link.own_of_quiet (Link.busy_atReset _) d.slot.toNat

/-- In a well-shaped state the queue's descriptors are the queued slots, each once. -/
theorem State.descriptorsOk_iff {s : State} (hs : s.Shape) :
    s.DescriptorsOk ↔
      s.rxq.Nodup ∧ (∀ d, d ∈ s.rxq ↔ s.ownAt d = .queued) ∧ ∀ l ∈ s.txq, l.toNat < s.params.nLinks := by
  have ⟨_, hlen, _⟩ := hs
  have hnames (d : Descriptor) (hd : s.ownAt d = .queued) :
      d.link.toNat < s.params.nLinks ∧ d.slot.toNat < s.params.nSlots := by
    have hl : d.link.toNat < s.params.nLinks := hlen ▸ State.link_lt_of_own (by simp [hd])
    exact ⟨hl, hs.slots_length hl ▸ Link.slot_lt_of_own (j := d.slot) (by rw [← State.ownAt, hd]; simp)⟩
  constructor
  · rintro ⟨hnodup, hmem, hqueued, htxq⟩
    refine ⟨hnodup, fun d => ⟨fun hd => (hmem d hd).2.2, fun hd => ?_⟩, htxq⟩
    obtain ⟨hl, hj⟩ := hnames d hd
    have hd' := hqueued d.link.toNat hl d.slot.toNat hj
    simp only [BitVec.ofNat_toNat, BitVec.setWidth_eq] at hd'
    exact hd' hd
  · rintro ⟨hnodup, hmem, htxq⟩
    refine ⟨hnodup, fun d hd => ?_, fun l _ i _ hq => (hmem _).mpr hq, htxq⟩
    have hown := (hmem d).mp hd
    obtain ⟨hl, hj⟩ := hnames d hown
    exact ⟨hl, hj, hown⟩

/-- A link is written without a slot entering or leaving `QUEUED`. -/
theorem State.ownAt_setLink_iff {s : State} {l : LinkNo} {k : Link}
    (h : ∀ j, (k.slot j).own = .queued ↔ ((s.link l).slot j).own = .queued) (d : Descriptor) :
    (s.setLink l k).ownAt d = .queued ↔ s.ownAt d = .queued := by
  unfold State.ownAt
  by_cases hd : d.link = l
  · by_cases hl : l.toNat < s.links.length
    · rw [hd, State.link_setLink_same k hl]
      exact h d.slot
    · rw [State.setLink, List.set_eq_of_length_le (Nat.not_lt.mp hl)]
  · rw [State.link_setLink_other s k hd]

/-- A link is written with the slots of the write of one slot. -/
theorem State.ownAt_setLink_setSlot {s : State} (hs : s.Shape) {l : LinkNo} {j : SlotNo} {v : Slot} {k : Link}
    (hl : l.toNat < s.params.nLinks) (hj : j.toNat < s.params.nSlots)
    (hk : k.slots = ((s.link l).setSlot j v).slots) (d : Descriptor) :
    (s.setLink l k).ownAt d = if d = { link := l, slot := j } then v.own else s.ownAt d := by
  have hset : ((s.setLink l k).link d.link).slot d.slot = ((s.setSlot l j v).link d.link).slot d.slot := by
    by_cases hd : d.link = l
    · rw [hd, State.setSlot, State.link_setLink_same k (State.lt_links_length hs hl),
        State.link_setLink_same _ (State.lt_links_length hs hl), Link.slot_congr hk]
    · rw [State.setSlot, State.link_setLink_other s k hd, State.link_setLink_other s _ hd]
  rw [State.ownAt, hset, State.slot_setSlot hs hl hj, apply_ite Slot.own]
  obtain ⟨dl, dj⟩ := d
  simp [State.ownAt]

theorem LinkWrite.ownAt {s : State} {i : Option Instr} {l : LinkNo} {k : Link} {f : State → State}
    (h : LinkWrite s i l k f) (d : Descriptor) : (f (s.setLink l k)).ownAt d = (s.setLink l k).ownAt d := by
  obtain ⟨hparams, hlinks, -⟩ := h.frame (s.setLink l k)
  rw [State.ownAt, State.ownAt, State.link, State.link, hparams, hlinks]

/-- The queue of descriptors and the queued slots change together: not at all, by one completed frame, or by one
descriptor popped. -/
def State.QueuedWithRxq (s u : State) : Prop :=
  (u.rxq = s.rxq ∧ ∀ d, u.ownAt d = .queued ↔ s.ownAt d = .queued) ∨
  (∃ d, s.ownAt d ≠ .queued ∧ u.rxq = s.rxq ++ [d] ∧ ∀ d', u.ownAt d' = .queued ↔ d' = d ∨ s.ownAt d' = .queued) ∨
  ∃ d, s.rxq = d :: u.rxq ∧ ∀ d', u.ownAt d' = .queued ↔ d' ≠ d ∧ s.ownAt d' = .queued

theorem ReceiveWrite.queuedWithRxq {s : State} {i : Option Instr} {l : LinkNo} {k : Link} {f : State → State}
    (hs : s.Inv) (h : ReceiveWrite s i l k f) : s.QueuedWithRxq (f (s.setLink l k)) := by
  have ⟨hlen, hact⟩ := hs.link_shapeOk l
  have hown := (LinkWrite.receive h).ownAt
  simp only [State.QueuedWithRxq, hown]
  cases h with
  | escape => exact .inl ⟨rfl, State.ownAt_setLink_iff fun j => Iff.rfl⟩
  | data l b d =>
    refine .inl ⟨rfl, State.ownAt_setLink_iff fun j => ?_⟩
    rcases Link.slot_accept_cases { s.link l with esc := false } s.params.slotCap d j with ⟨rfl, hj⟩ | hj
    all_goals exact (congrArg (·.own = Own.queued) hj).to_iff
  | completed l b hl hcnt =>
    have hprod : s.ownAt { link := l, slot := (s.link l).act } = .prod := hs.own_of_cnt hl hcnt
    refine .inr (.inl ⟨_, by simp [hprod], rfl, fun d => ?_⟩)
    rw [State.ownAt_setLink_setSlot hs.shape hl hact
      (Link.nextFrame_slots ((s.link l).setSlot (s.link l).act (s.link l).completed) s.params.nSlots)]
    split
    · next hd => simp [hd]
    · next hd => simp [hd]
  | dropped l b hl hcnt =>
    refine .inl ⟨rfl, State.ownAt_setLink_iff fun j => ?_⟩
    rcases (s.link l).slot_setSlot_cases (s.link l).act ((s.link l).slot (s.link l).act).emptied j with
      ⟨rfl, hj⟩ | hj
    all_goals exact (congrArg (·.own = Own.queued) hj).to_iff
  | taken l j rest hrxq =>
    have ⟨_, hmem, _⟩ := hs.descriptors
    obtain ⟨hl, hj, -⟩ := hmem { link := l, slot := j } (by simp [hrxq])
    refine .inr (.inr ⟨_, hrxq, fun d => ?_⟩)
    rw [State.ownAt_setLink_setSlot (v := { (s.link l).slot j with own := .held }) hs.shape hl hj rfl]
    split
    · next hd => simp [hd]
    · next hd => simp [hd]
  | released l p hheld =>
    refine .inl ⟨rfl, State.ownAt_setLink_iff fun j => ?_⟩
    rcases (s.link l).slot_setSlot_cases p { ((s.link l).slot p).emptied with own := .prod } j with ⟨rfl, hj⟩ | hj
    · rw [hj, hheld]
      simp
    · exact (congrArg (·.own = Own.queued) hj).to_iff

theorem Effect.queuedWithRxq {s u : State} {i : Option Instr} (he : Effect s i u) (hs : s.Inv) :
    s.QueuedWithRxq u := by
  cases he with
  | @write _ l k f hw =>
    rcases hw.receive_cases with ⟨⟨-, -, -, hslots⟩, hrxq⟩ | hr | ⟨-, -, rfl, rfl⟩
    · refine .inl ⟨hrxq _, fun d => ?_⟩
      rw [hw.ownAt]
      exact State.ownAt_setLink_iff (fun j => by rw [Link.slot_congr hslots]) d
    · exact hr.queuedWithRxq hs
    · exact .inl ⟨rfl, State.ownAt_setLink_iff fun j => by rw [Link.slot_reinit, Slot.emptied_own]⟩
  | _ => exact .inl ⟨rfl, fun _ => Iff.rfl⟩

theorem Effect.descriptorsOk {s u : State} {i : Option Instr} (he : Effect s i u) (hs : s.Inv) :
    u.DescriptorsOk := by
  obtain ⟨hnodup, hmem, htxq⟩ := (State.descriptorsOk_iff hs.shape).mp hs.descriptors
  rw [State.descriptorsOk_iff (he.shape hs.shape), he.params]
  have hrx : u.rxq.Nodup ∧ ∀ d, d ∈ u.rxq ↔ u.ownAt d = .queued := by
    rcases he.queuedWithRxq hs with ⟨hq, hown⟩ | ⟨d, hd, hq, hown⟩ | ⟨d, hq, hown⟩
    · rw [hq]
      exact ⟨hnodup, fun d => by rw [hmem, hown]⟩
    · rw [hq]
      refine ⟨List.nodup_append.mpr ⟨hnodup, List.nodup_singleton d, ?_⟩, fun d' => ?_⟩
      · rintro a ha b hb rfl
        rw [List.mem_singleton.mp hb] at ha
        exact hd ((hmem d).mp ha)
      · rw [hown, List.mem_append, hmem, List.mem_singleton, or_comm]
    · rw [hq] at hnodup hmem
      obtain ⟨hd, hnodup⟩ := List.nodup_cons.mp hnodup
      refine ⟨hnodup, fun d' => ?_⟩
      rw [hown, ← hmem, List.mem_cons]
      constructor
      · exact fun h => ⟨fun e => hd (e ▸ h), .inr h⟩
      · exact fun ⟨hne, h⟩ => h.resolve_left hne
  refine ⟨hrx.1, hrx.2, ?_⟩
  rcases he.txq_cases with hq | ⟨l, hl, -, hq⟩ | ⟨l, hq⟩
  · exact hq ▸ htxq
  · rw [hq]
    intro m hm
    rcases List.mem_append.mp hm with hm | hm
    · exact htxq m hm
    · exact List.mem_singleton.mp hm ▸ hl
  · exact fun m hm => htxq m (hq ▸ List.mem_cons_of_mem l hm)

/-! ### The whole invariant -/

theorem Effect.inv {s u : State} {i : Option Instr} (he : Effect s i u) (hs : s.Inv) : u.Inv where
  shape := he.shape hs.shape
  storage := he.storageOk hs.storage
  queues := he.queuesBounded hs.queues
  transmit := he.forall_links (Link.transmitOk_atReset _) LinkWrite.transmitOk hs.transmit
  receive := he.receiveOk hs
  descriptors := he.descriptorsOk hs
  latch := he.latchOk hs.latch

theorem State.SameHardware.inv {s t : State} (h : s.SameHardware t) (hs : s.Inv) : t.Inv := by
  obtain ⟨e, a, r, n, rfl⟩ := h
  exact ⟨hs.shape, hs.storage, hs.queues, hs.transmit, hs.receive, hs.descriptors, hs.latch⟩

theorem State.SameHardware.params {s t : State} (h : s.SameHardware t) : t.params = s.params := by
  obtain ⟨e, a, r, n, rfl⟩ := h
  rfl

theorem State.applyReset_shape {s : State} (hp : s.params.Legal) : s.applyReset.Shape :=
  ⟨hp, List.length_replicate, State.applyReset_forall_links (Link.shapeOk_atReset hp)⟩

theorem State.ownAt_applyReset (s : State) (d : Descriptor) : s.applyReset.ownAt d = .prod :=
  Link.own_of_quiet (State.link_of_forall (P := fun k => k.busy = false) (Link.busy_atReset _)
    (State.applyReset_forall_links (Link.busy_atReset _)) d.link) d.slot.toNat

/-- The reset input establishes the invariant for legal parameters (R300). -/
theorem State.applyReset_inv {s : State} (hp : s.params.Legal) : s.applyReset.Inv where
  shape := State.applyReset_shape hp
  storage := State.applyReset_forall_links (Link.storageOk_atReset _ s.params.slotCap)
  queues := ⟨Nat.zero_le _, Nat.zero_le _,
    State.applyReset_forall_links (P := fun k => k.ring.length ≤ s.params.txRingCap) (Nat.zero_le _)⟩
  transmit := State.applyReset_forall_links (Link.transmitOk_atReset _)
  receive := State.applyReset_forall_links (Link.receiveOk_atReset s.params)
  descriptors := (State.descriptorsOk_iff (State.applyReset_shape hp)).mpr
    ⟨List.nodup_nil, fun d => by simp [State.ownAt_applyReset], nofun⟩
  latch := ⟨fun _ => ⟨rfl, rfl⟩, nofun⟩

/-- Settles O13: each part of the invariant is kept by every effect, and the reset input establishes it. -/
theorem stepKeepsInv : Obligations.StepKeepsInv := by
  intro s t hs h
  refine step_keeps (P := fun u => u.Inv ∧ u.params = s.params) ?_ ?_ ?_ ⟨hs, rfl⟩ h
  · exact fun hsame ⟨hi, hp⟩ => ⟨hsame.inv hi, hsame.params.trans hp⟩
  · exact fun he ⟨hi, hp⟩ => ⟨he.inv hi, he.params.trans hp⟩
  · exact fun ⟨hi, hp⟩ => ⟨State.applyReset_inv hi.shape.1, hp⟩

end Sys2Proof.Machine

namespace Sys2Proof.Machine

/-! ### The circular buffer and the bounded list (`10_state.md` R36) -/

/-- The circular buffer `q` of capacity `cap` holds the list `xs`: `wr` is `length xs` places after `rd` modulo twice
the capacity, and the entries stand from `rd` on, modulo the capacity. -/
structure Circ.Holds {α : Type} (cap : Nat) (q : Circ α) (xs : List α) : Prop where
  size : q.store.length = cap
  rd_lt : q.rd < 2 * cap
  wr_eq : q.wr = (q.rd + xs.length) % (2 * cap)
  length_le : xs.length ≤ cap
  entry : ∀ i (h : i < xs.length), q.store[(q.rd + i) % cap]? = some (some xs[i])

section
variable {α : Type} {cap : Nat}

theorem circReset_holds (hcap : 1 ≤ cap) : (circReset α cap).Holds cap [] where
  size := List.length_replicate
  rd_lt := by simp only [circReset]; omega
  wr_eq := by simp [circReset]
  length_le := Nat.zero_le _
  entry := nofun

variable {q : Circ α} {xs : List α}

theorem Circ.Holds.wr_lt (h : q.Holds cap xs) : q.wr < 2 * cap :=
  h.wr_eq ▸ Nat.mod_lt _ (Nat.zero_lt_of_lt h.rd_lt)

/-- The indices are taken modulo twice the capacity, so a full buffer is not read as an empty one. -/
theorem Circ.Holds.occ (h : q.Holds cap xs) : circOcc cap q = xs.length := by
  obtain ⟨-, hrd, hwr, hlen, -⟩ := h
  rw [circOcc, hwr]
  by_cases hwrap : q.rd + xs.length < 2 * cap
  · rw [Nat.mod_eq_of_lt hwrap, show q.rd + xs.length + 2 * cap - q.rd = xs.length + 2 * cap by omega,
      Nat.add_mod_right, Nat.mod_eq_of_lt (by omega)]
  · have hmod : (q.rd + xs.length) % (2 * cap) = q.rd + xs.length - 2 * cap := by
      rw [Nat.mod_eq_sub_mod (by omega), Nat.mod_eq_of_lt (by omega)]
    rw [hmod, show q.rd + xs.length - 2 * cap + 2 * cap - q.rd = xs.length by omega, Nat.mod_eq_of_lt (by omega)]

theorem mod_two_mul_mod (a cap : Nat) : a % (2 * cap) % cap = a % cap := Nat.mod_mod_of_dvd a (Nat.dvd_mul_left cap 2)

/-- Two places less than a capacity apart are different entries of the storage. -/
theorem add_mod_ne {a i n : Nat} (hi : i < n) (hn : n < cap) : (a + n) % cap ≠ (a + i) % cap := by
  intro h
  have hni : n ≡ i [MOD cap] := Nat.ModEq.add_left_cancel' a h
  exact absurd (hni.eq_of_lt_of_lt hn (hi.trans hn)) (Nat.ne_of_gt hi)

theorem Circ.Holds.push (h : q.Holds cap xs) (hroom : xs.length < cap) (e : α) :
    (circPush cap q e).Holds cap (xs ++ [e]) := by
  obtain ⟨hsize, hrd, hwr, -, hentry⟩ := h
  have hplace : q.wr % cap = (q.rd + xs.length) % cap := by rw [hwr, mod_two_mul_mod]
  refine ⟨by simp [circPush, hsize], hrd, ?_, by simpa using hroom, fun i hi => ?_⟩
  · simp only [circPush, hwr, Nat.mod_add_mod, List.length_append, List.length_singleton, Nat.add_assoc]
  · simp only [circPush, hplace]
    by_cases hlast : i = xs.length
    · subst hlast
      have hlt : (q.rd + xs.length) % cap < q.store.length := hsize ▸ Nat.mod_lt _ (by omega)
      simp [List.getElem?_set_self hlt]
    · have hi' : i < xs.length := by
        rw [List.length_append, List.length_singleton] at hi
        omega
      rw [List.getElem?_set_ne (add_mod_ne hi' hroom), hentry i hi', List.getElem_append_left hi']

theorem Circ.Holds.pop {x : α} (h : q.Holds cap (x :: xs)) :
    (circPop cap q).1 = some x ∧ (circPop cap q).2.Holds cap xs := by
  obtain ⟨hsize, hrd, hwr, hlen, hentry⟩ := h
  rw [List.length_cons] at hwr hlen
  refine ⟨?_, hsize, Nat.mod_lt _ (by omega), ?_, by omega, fun i hi => ?_⟩
  · have hhead := hentry 0 (by simp)
    rw [Nat.add_zero] at hhead
    simp [circPop, hhead]
  · simp only [circPop, hwr, Nat.mod_add_mod]
    rw [Nat.add_assoc, Nat.add_comm 1]
  · have htail := hentry (i + 1) (by simpa using hi)
    simp only [circPop]
    rw [Nat.add_mod, mod_two_mul_mod, ← Nat.add_mod, Nat.add_assoc, Nat.add_comm 1]
    simpa using htail

/-- A run on the buffer and the same run on the list answer the same pops, and the buffer still holds the list. -/
theorem Circ.Holds.run (ops : List (QueueOp α)) : ∀ {q : Circ α} {xs : List α}, q.Holds cap xs →
    (circRun cap ops q).1 = (listRun cap ops xs).1 ∧ (circRun cap ops q).2.Holds cap (listRun cap ops xs).2 := by
  induction ops with
  | nil => exact fun h => ⟨rfl, h⟩
  | cons op ops ih =>
    intro q xs h
    have hocc := h.occ
    cases op with
    | push e =>
      simp only [circRun, listRun, hocc]
      split
      · next hroom => exact ih (h.push hroom e)
      · exact ih h
    | pop =>
      cases xs with
      | nil =>
        obtain ⟨hans, hlast⟩ := ih h
        simp only [circRun, listRun, hocc, List.length_nil, Nat.lt_irrefl, if_false]
        exact ⟨congrArg (none :: ·) hans, hlast⟩
      | cons x xs =>
        obtain ⟨hx, hq⟩ := h.pop
        obtain ⟨hans, hlast⟩ := ih hq
        simp only [circRun, listRun, hocc, List.length_cons, Nat.succ_pos, if_true]
        exact ⟨by rw [hx, hans], hlast⟩

end

/-- Settles O25, by induction on the run: the buffer holds the list at every point of it. -/
theorem circularBufferIsBoundedList : Obligations.CircularBufferIsBoundedList := by
  intro α cap ops hcap
  obtain ⟨hans, hlast⟩ := Circ.Holds.run ops (circReset_holds (α := α) hcap)
  exact ⟨hans, hlast.occ, hlast.length_le, hlast.rd_lt, hlast.wr_lt⟩

end Sys2Proof.Machine

namespace Sys2Proof.Machine

/-! ### What the commands that only read leave unchanged (`20_memory.md` R67) -/

/-- Every command is one atomic step over a body that stays within the command's effects. -/
theorem exec_eq_command (i : Instr) (s : State) : ∃ body, exec i s = s.command i body ∧ body.Within s i := by
  cases i with
  | nop => exact ⟨.done s, rfl, .nothing _⟩
  | rxb l b => exact ⟨_, rfl, rxbBody_within l b s⟩
  | txs l => exact ⟨_, rfl, txsBody_within l s⟩
  | txd l b => exact ⟨_, rfl, txdBody_within l b s⟩
  | txe l => exact ⟨_, rfl, txeBody_within l s⟩
  | rxqp => exact ⟨_, rfl, rxqpBody_within s⟩
  | slrd l j n => exact ⟨_, rfl, slrdBody_within l j n s⟩
  | fchk l j => exact ⟨_, rfl, fchkBody_within l j s⟩
  | slrl l j => exact ⟨_, rfl, slrlBody_within l j s⟩
  | txqp => exact ⟨_, rfl, txqpBody_within s⟩
  | cfgl l r v => exact ⟨_, rfl, cfglBody_within l r v s⟩
  | cfgh l r v => exact ⟨_, rfl, cfghBody_within l r v s⟩
  | cfgr l r => exact ⟨_, rfl, cfgrBody_within l r s⟩
  | strd r => exact ⟨_, rfl, strdBody_within r s⟩
  | linit l => exact ⟨_, rfl, linitBody_within l s⟩

/-- The next state of a command is one of its effects with the response written.  Unlike `exec_effect` this keeps the
schedule, the issuer and the count of free choices in view. -/
theorem exec_answer {i : Instr} {s t : State} (h : exec i s = .next t) :
    ∃ u, Effect s (some i) u ∧ (t = u.noReply ∨ ∃ v, t = u.respond v) := by
  obtain ⟨body, hexec, hb⟩ := exec_eq_command i s
  rcases State.command_cases (hexec ▸ h) with ⟨-, rfl⟩ | ⟨hrun, ⟨u, rfl, rfl⟩ | ⟨u, v, rfl, rfl⟩ | ⟨c, -, rfl⟩⟩
  · exact ⟨s, .nothing _, .inl rfl⟩
  · exact ⟨u, hb, .inl rfl⟩
  · exact ⟨u, hb, .inr ⟨v, rfl⟩⟩
  · exact ⟨_, .latched _ c (encode i) hrun, .inl rfl⟩

/-- NOP has no fault, so it does not even write the latch (R246). -/
theorem exec_nop (s : State) : exec .nop s = .next s.noReply := by
  rcases Bool.eq_false_or_eq_true s.faultValid with halted | hrun
  · exact State.command_halted halted .nop (.done s)
  · exact State.command_running hrun .nop (.done s)

/-- The commands that have a write of a link among their effects. -/
def writesLink : Instr → Bool
  | .nop | .slrd .. | .fchk .. | .txqp | .cfgr .. | .strd _ => false
  | _ => true

section
variable {s u : State} {i : Instr} {l : LinkNo}

theorem LinkWrite.writesLink {k : Link} {f : State → State} (h : LinkWrite s (some i) l k f) :
    writesLink i = true := by
  cases h with
  | receive h => cases h <;> rfl
  | transmit h => cases h <;> rfl
  | configLow => rfl
  | configHigh => rfl
  | reinit => rfl

/-- The reads have no effect but the latch of a fault. -/
theorem Effect.sameBlock_of_read (he : Effect s (some i) u)
    (hread : i = .nop ∨ (∃ l j n, i = .slrd l j n) ∨ (∃ l r, i = .cfgr l r) ∨ ∃ r, i = .strd r) : s.SameBlock u := by
  cases he with
  | nothing => exact ⟨rfl, ⟨rfl, rfl⟩, ⟨rfl, rfl⟩, ⟨rfl, rfl⟩, rfl, rfl, rfl, rfl⟩
  | latched => exact ⟨rfl, ⟨rfl, rfl⟩, ⟨rfl, rfl⟩, ⟨rfl, rfl⟩, rfl, rfl, rfl, rfl⟩
  | badFcs => simp at hread
  | badSize => simp at hread
  | reclaimed => simp at hread
  | write hw =>
    have hlink := hw.writesLink
    rcases hread with rfl | ⟨_, _, _, rfl⟩ | ⟨_, _, rfl⟩ | ⟨_, rfl⟩ <;> cases hlink

/-- FCHK has no effect but the latch of a fault or one verdict counter (R210). -/
theorem Effect.fchk_frame {j : SlotNo} (he : Effect s (some (.fchk l j)) u) :
    u.links = s.links ∧ s.SameRxQueue u ∧ s.SameTxQueue u ∧ s.SameModel u ∧
      (u.fcsErr = s.fcsErr ∨ u.mruErr = s.mruErr) := by
  cases he with
  | nothing => exact ⟨rfl, ⟨rfl, rfl⟩, ⟨rfl, rfl⟩, ⟨rfl, rfl, rfl, rfl⟩, .inl rfl⟩
  | latched => exact ⟨rfl, ⟨rfl, rfl⟩, ⟨rfl, rfl⟩, ⟨rfl, rfl, rfl, rfl⟩, .inl rfl⟩
  | badFcs => exact ⟨rfl, ⟨rfl, rfl⟩, ⟨rfl, rfl⟩, ⟨rfl, rfl, rfl, rfl⟩, .inr rfl⟩
  | badSize => exact ⟨rfl, ⟨rfl, rfl⟩, ⟨rfl, rfl⟩, ⟨rfl, rfl, rfl, rfl⟩, .inl rfl⟩
  | write hw => cases hw.writesLink

end

/-- Settles O59: none of the five commands has a write of a link among its effects, and the response that ends the
step is no part of the frame. -/
theorem readCommandFrame : Obligations.ReadCommandFrame := by
  intro s t i h
  refine ⟨fun hread => ?_, ?_, ?_⟩
  · obtain ⟨u, he, rfl | ⟨v, rfl⟩⟩ := exec_answer h
    · exact he.sameBlock_of_read hread
    · exact he.sameBlock_of_read hread
  · rintro l j rfl
    obtain ⟨u, he, rfl | ⟨v, rfl⟩⟩ := exec_answer h
    · exact he.fchk_frame
    · exact he.fchk_frame
  · rintro rfl
    rw [exec_nop] at h
    injection h with h
    subst h
    exact ⟨rfl, rfl, rfl⟩

end Sys2Proof.Machine

namespace Sys2Proof

/-! ### The decoder on a packed word (`30_encoding.md` R81 to R84)

One equation per row of the opcode map, over the fields of the word: which fields must be zero, and the command. -/

theorem packWord_eq_iff {op sel : BitVec 4} {link : LinkNo} {arg : Half} {w : Word} :
    packWord op sel link arg = w ↔
      op = w.extractLsb' 28 4 ∧ sel = w.extractLsb' 24 4 ∧ link = w.extractLsb' 16 8 ∧
        arg = w.extractLsb' 0 16 := by
  conv_lhs => rw [← packWord_fields w]
  exact packWord_inj

theorem toNat_byteArg (b : Byte) : (byteArg b).toNat = b.toNat := by
  show (0#8 ++ b : BitVec (8 + 8)).toNat = _
  rw [BitVec.toNat_append]
  simp

theorem eq_byteArg_of_lt {arg : Half} (h : arg.toNat < 256) : arg = byteArg (arg.extractLsb' 0 8) := by
  apply BitVec.eq_of_toNat_eq
  rw [toNat_byteArg, BitVec.extractLsb'_toNat, Nat.shiftRight_zero, Nat.mod_eq_of_lt h]

/-- The mask of a data byte's `arg` field asks that the field is below 256 (R82, R85). -/
theorem arg_and_eq_zero_iff_lt (arg : Half) : arg &&& 0xFF00#16 = 0#16 ↔ arg.toNat < 256 := by
  refine (arg_and_eq_zero arg).trans ⟨fun h => ?_, eq_byteArg_of_lt⟩
  rw [h, toNat_byteArg]
  exact BitVec.isLt _

section
variable (sel : BitVec 4) (link : LinkNo) (arg : Half)

@[simp] theorem decode_packWord_nop : decode (packWord 0x0#4 sel link arg) =
    if sel = 0 ∧ link = 0 ∧ arg = 0 then .ok .nop else .error .mustBeZero := by
  simp [decode, spelled, and_all, packWord_eq_iff]

@[simp] theorem decode_packWord_rxb : decode (packWord 0x1#4 sel link arg) =
    if sel = 0 ∧ arg.toNat < 256 then .ok (.rxb link (arg.extractLsb' 0 8)) else .error .mustBeZero := by
  simp [decode, spelled, and_linkByte, packWord_eq_iff, byteField_packWord, arg_and_eq_zero_iff_lt]

@[simp] theorem decode_packWord_txs : decode (packWord 0x2#4 sel link arg) =
    if sel = 0 ∧ arg = 0 then .ok (.txs link) else .error .mustBeZero := by
  simp [decode, spelled, and_link, packWord_eq_iff]

@[simp] theorem decode_packWord_txd : decode (packWord 0x3#4 sel link arg) =
    if sel = 0 ∧ arg.toNat < 256 then .ok (.txd link (arg.extractLsb' 0 8)) else .error .mustBeZero := by
  simp [decode, spelled, and_linkByte, packWord_eq_iff, byteField_packWord, arg_and_eq_zero_iff_lt]

@[simp] theorem decode_packWord_txe : decode (packWord 0x4#4 sel link arg) =
    if sel = 0 ∧ arg = 0 then .ok (.txe link) else .error .mustBeZero := by
  simp [decode, spelled, and_link, packWord_eq_iff]

@[simp] theorem decode_packWord_rxqp : decode (packWord 0x5#4 sel link arg) =
    if sel = 0 ∧ link = 0 ∧ arg = 0 then .ok .rxqp else .error .mustBeZero := by
  simp [decode, spelled, and_all, packWord_eq_iff]

@[simp] theorem decode_packWord_slrd : decode (packWord 0x6#4 sel link arg) = .ok (.slrd link sel arg) := by
  simp [decode, spelled, and_opOnly, packWord_eq_iff]

@[simp] theorem decode_packWord_fchk : decode (packWord 0x7#4 sel link arg) =
    if arg = 0 then .ok (.fchk link sel) else .error .mustBeZero := by
  simp [decode, spelled, and_selLink, packWord_eq_iff]

@[simp] theorem decode_packWord_slrl : decode (packWord 0x8#4 sel link arg) =
    if arg = 0 then .ok (.slrl link sel) else .error .mustBeZero := by
  simp [decode, spelled, and_selLink, packWord_eq_iff]

@[simp] theorem decode_packWord_txqp : decode (packWord 0x9#4 sel link arg) =
    if sel = 0 ∧ link = 0 ∧ arg = 0 then .ok .txqp else .error .mustBeZero := by
  simp [decode, spelled, and_all, packWord_eq_iff]

@[simp] theorem decode_packWord_cfgl : decode (packWord 0xA#4 sel link arg) = .ok (.cfgl link sel arg) := by
  simp [decode, spelled, and_opOnly, packWord_eq_iff]

@[simp] theorem decode_packWord_cfgh : decode (packWord 0xB#4 sel link arg) = .ok (.cfgh link sel arg) := by
  simp [decode, spelled, and_opOnly, packWord_eq_iff]

@[simp] theorem decode_packWord_cfgr : decode (packWord 0xC#4 sel link arg) =
    if arg = 0 then .ok (.cfgr link sel) else .error .mustBeZero := by
  simp [decode, spelled, and_selLink, packWord_eq_iff]

@[simp] theorem decode_packWord_strd : decode (packWord 0xD#4 sel link arg) =
    if link = 0 ∧ arg = 0 then .ok (.strd sel) else .error .mustBeZero := by
  simp [decode, spelled, and_selOnly, packWord_eq_iff]

@[simp] theorem decode_packWord_linit : decode (packWord 0xE#4 sel link arg) =
    if sel = 0 ∧ arg = 0 then .ok (.linit link) else .error .mustBeZero := by
  simp [decode, spelled, and_link, packWord_eq_iff]

@[simp] theorem decode_packWord_reserved : decode (packWord 0xF#4 sel link arg) = .error .reservedOpcode := by
  simp [decode]

end

/-- A word is met through its opcode: one case per row of the opcode map, and one for `op = 0xF` (R83). -/
theorem word_cases {P : Word → Prop}
    (nop : ∀ sel link arg, P (packWord 0x0#4 sel link arg))
    (rxb : ∀ sel link arg, P (packWord 0x1#4 sel link arg))
    (txs : ∀ sel link arg, P (packWord 0x2#4 sel link arg))
    (txd : ∀ sel link arg, P (packWord 0x3#4 sel link arg))
    (txe : ∀ sel link arg, P (packWord 0x4#4 sel link arg))
    (rxqp : ∀ sel link arg, P (packWord 0x5#4 sel link arg))
    (slrd : ∀ sel link arg, P (packWord 0x6#4 sel link arg))
    (fchk : ∀ sel link arg, P (packWord 0x7#4 sel link arg))
    (slrl : ∀ sel link arg, P (packWord 0x8#4 sel link arg))
    (txqp : ∀ sel link arg, P (packWord 0x9#4 sel link arg))
    (cfgl : ∀ sel link arg, P (packWord 0xA#4 sel link arg))
    (cfgh : ∀ sel link arg, P (packWord 0xB#4 sel link arg))
    (cfgr : ∀ sel link arg, P (packWord 0xC#4 sel link arg))
    (strd : ∀ sel link arg, P (packWord 0xD#4 sel link arg))
    (linit : ∀ sel link arg, P (packWord 0xE#4 sel link arg))
    (reserved : ∀ sel link arg, P (packWord 0xF#4 sel link arg)) (w : Word) : P w := by
  rw [← packWord_fields w]
  generalize opField w = op
  have hop : op = BitVec.ofNat 4 op.toNat := by simp
  have hlt : op.toNat < 16 := op.isLt
  rw [hop]
  interval_cases op.toNat
  exacts [nop _ _ _, rxb _ _ _, txs _ _ _, txd _ _ _, txe _ _ _, rxqp _ _ _, slrd _ _ _, fchk _ _ _, slrl _ _ _,
    txqp _ _ _, cfgl _ _ _, cfgh _ _ _, cfgr _ _ _, strd _ _ _, linit _ _ _, reserved _ _ _]

/-! ### The decoder and the encoder are inverse (`30_encoding.md` R84, R87) -/

theorem decode_encode (i : Instr) : decode (encode i) = .ok i := by
  cases i with
  | rxb l b | txd l b =>
    have hb : (byteArg b).toNat < 256 := toNat_byteArg b ▸ b.isLt
    simp [encode, hb, extractLsb'_byteArg]
  | _ => simp [encode]

/-- Settles O1: the must-be-zero fields of every command's word are zero, and its operands are read back from the
fields they were packed into. -/
theorem decodeEncodeRoundTrip : Obligations.DecodeEncodeRoundTrip := decode_encode

/-- What a row reads is encoded by the same word, once the fields that the row asks to be zero are. -/
theorem encode_of_row {C : Prop} [Decidable C] {w : Word} {i j : Instr} (hi : C → encode i = w)
    (h : (if C then .ok i else .error .mustBeZero : Except DecodeError Instr) = .ok j) : encode j = w := by
  split at h
  · next hC => exact Except.ok.inj h ▸ hi hC
  · cases h

theorem encode_of_decode {w : Word} {i : Instr} (h : decode w = .ok i) : encode i = w := by
  induction w using word_cases with
  | nop sel link arg => exact encode_of_row (by rintro ⟨rfl, rfl, rfl⟩; rfl) (decode_packWord_nop .. ▸ h)
  | rxb sel link arg =>
    refine encode_of_row (fun ⟨hsel, harg⟩ => ?_) (decode_packWord_rxb .. ▸ h)
    rw [encode, ← eq_byteArg_of_lt harg, hsel]
    rfl
  | txs sel link arg => exact encode_of_row (by rintro ⟨rfl, rfl⟩; rfl) (decode_packWord_txs .. ▸ h)
  | txd sel link arg =>
    refine encode_of_row (fun ⟨hsel, harg⟩ => ?_) (decode_packWord_txd .. ▸ h)
    rw [encode, ← eq_byteArg_of_lt harg, hsel]
    rfl
  | txe sel link arg => exact encode_of_row (by rintro ⟨rfl, rfl⟩; rfl) (decode_packWord_txe .. ▸ h)
  | rxqp sel link arg => exact encode_of_row (by rintro ⟨rfl, rfl, rfl⟩; rfl) (decode_packWord_rxqp .. ▸ h)
  | slrd sel link arg => exact Except.ok.inj (decode_packWord_slrd .. ▸ h) ▸ rfl
  | fchk sel link arg => exact encode_of_row (by rintro rfl; rfl) (decode_packWord_fchk .. ▸ h)
  | slrl sel link arg => exact encode_of_row (by rintro rfl; rfl) (decode_packWord_slrl .. ▸ h)
  | txqp sel link arg => exact encode_of_row (by rintro ⟨rfl, rfl, rfl⟩; rfl) (decode_packWord_txqp .. ▸ h)
  | cfgl sel link arg => exact Except.ok.inj (decode_packWord_cfgl .. ▸ h) ▸ rfl
  | cfgh sel link arg => exact Except.ok.inj (decode_packWord_cfgh .. ▸ h) ▸ rfl
  | cfgr sel link arg => exact encode_of_row (by rintro rfl; rfl) (decode_packWord_cfgr .. ▸ h)
  | strd sel link arg => exact encode_of_row (by rintro ⟨rfl, rfl⟩; rfl) (decode_packWord_strd .. ▸ h)
  | linit sel link arg => exact encode_of_row (by rintro ⟨rfl, rfl⟩; rfl) (decode_packWord_linit .. ▸ h)
  | reserved sel link arg => cases (decode_packWord_reserved ..).symm.trans h

theorem decode_eq_ok_iff {w : Word} {i : Instr} : decode w = .ok i ↔ w = encode i :=
  ⟨fun h => (encode_of_decode h).symm, fun h => h ▸ decode_encode i⟩

/-! ### The decoder by the rows of the opcode map (`30_encoding.md` R83) -/

theorem decode_of_op_reserved {w : Word} (h : opField w = 0xF) : decode w = .error .reservedOpcode := by
  rw [← packWord_fields w, h]
  exact decode_packWord_reserved ..

/-- The row with the word's opcode is the only one whose test is made. -/
theorem decode_eq_spelled {w : Word} {row : OpcodeRow} (hrow : row ∈ opcodeMap) (hop : row.op = opField w) :
    ∃ i, decode w = spelled w row.pattern row.mask i := by
  rw [decode, ← hop]
  simp only [opcodeMap, List.mem_cons, List.not_mem_nil, or_false] at hrow
  rcases hrow with rfl | rfl | rfl | rfl | rfl | rfl | rfl | rfl | rfl | rfl | rfl | rfl | rfl | rfl | rfl <;>
    exact ⟨_, rfl⟩

theorem opcodeMap_mask_pattern : ∀ row ∈ opcodeMap, opField row.mask = 0xF ∧ opField row.pattern = row.op := by
  decide

/-- Every mask covers the opcode, so a word spells at most the row that its opcode selects. -/
theorem OpcodeRow.op_eq_of_spells {row : OpcodeRow} {w : Word} (hrow : row ∈ opcodeMap) (h : row.Spells w) :
    row.op = opField w := by
  obtain ⟨hmask, hpattern⟩ := opcodeMap_mask_pattern row hrow
  calc row.op = opField (w &&& row.mask) := by rw [h, hpattern]
    _ = opField w &&& opField row.mask := BitVec.extractLsb'_and
    _ = opField w := by rw [hmask]; exact BitVec.and_allOnes

theorem opcodeMap_op_nodup : (opcodeMap.map OpcodeRow.op).Nodup := by decide

/-- Settles O2: the opcode selects one row, whose test is the decoder's, and a word spells a row only with that row's
opcode. -/
theorem decodeFollowsOpcodeMap : Obligations.DecodeFollowsOpcodeMap := by
  refine ⟨fun w => decode_of_op_reserved, fun w row hrow hop => ?_, fun w row hrow row' hrow' h h' => ?_⟩
  · obtain ⟨i, hdecode⟩ := decode_eq_spelled hrow hop
    refine ⟨fun hno => hdecode.trans (spelled_eq_error.mpr ⟨hno, rfl⟩), fun hspells => ?_⟩
    have hok : decode w = .ok i := hdecode.trans (spelled_eq_ok.mpr ⟨hspells, rfl⟩)
    exact ⟨i, hok, encode_of_decode hok⟩
  · have hop : row.op = row'.op := (row.op_eq_of_spells hrow h).trans (row'.op_eq_of_spells hrow' h').symm
    exact List.inj_on_of_nodup_map opcodeMap_op_nodup hrow hrow' hop

/-- Settles O4, by running the decoder on the nine words. -/
theorem knownWordsDecode : Obligations.KnownWordsDecode := by
  unfold Obligations.KnownWordsDecode
  decide

end Sys2Proof

namespace Sys2Proof.Machine

/-! ### The pseudo-commands (`30_encoding.md` R88) -/

theorem assembleLine_tokens {m t : Token} {us : List Token} (hm : Clean m) (ht : Clean t) (hu : ∀ u ∈ us, Clean u) :
    assembleLine (m ++ [' '] ++ (t ++ us.flatMap fun u => [',', ' '] ++ u)) =
      (assembleTokens (m :: t :: us)).map (List.map encode) := by
  rw [assembleLine, tokensFrom_mnemonic hm, tokensFrom_list ht hu]

theorem assembleTokens_cfgw (args : List Token) :
    assembleTokens ("CFGW".toList :: args) = lineLinkReg (n := 32) expandCfgw args := by
  simp [assembleTokens]

theorem assembleTokens_txframe (args : List Token) :
    assembleTokens ("TXFRAME".toList :: args) = lineLinkBytes expandTxframe args := by
  simp [assembleTokens]

theorem assembleTokens_rxseq (args : List Token) :
    assembleTokens ("RXSEQ".toList :: args) = lineLinkBytes expandRxseq args := by
  simp [assembleTokens]

/-- A line whose mnemonic takes a link, a selector and a value, for any spelling of the three. -/
theorem assembleLine_linkReg {n : Nat} {m t u v : Token} {f : LinkNo → RegSel → BitVec n → List Instr} {l : LinkNo}
    {r : RegSel} {x : BitVec n} (hm : Clean m) (hline : ∀ args, assembleTokens (m :: args) = lineLinkReg f args)
    (ht : fieldValue 8 t = some l) (hu : selector cfgNames u = some r) (hv : fieldValue n v = some x) :
    assembleLine (m ++ [' '] ++ (t ++ [u, v].flatMap fun y => [',', ' '] ++ y)) = some ((f l r x).map encode) := by
  have hclean : ∀ y ∈ [u, v], Clean y := by
    simpa using ⟨selector_clean cfgNames_clean hu, fieldValue_clean hv⟩
  rw [assembleLine_tokens hm (fieldValue_clean ht) hclean, hline]
  simp [lineLinkReg, ht, hu, hv]

/-- A line whose mnemonic takes a link and data bytes, for any spelling of them. -/
theorem assembleLine_linkBytes {m t : Token} {us : List Token} {f : LinkNo → List Byte → List Instr} {l : LinkNo}
    {p : List Byte} (hm : Clean m) (hline : ∀ args, assembleTokens (m :: args) = lineLinkBytes f args)
    (ht : fieldValue 8 t = some l) (hus : byteList us = some p) :
    assembleLine (m ++ [' '] ++ (t ++ us.flatMap fun u => [',', ' '] ++ u)) = some ((f l p).map encode) := by
  rw [assembleLine_tokens hm (fieldValue_clean ht) (byteList_clean hus), hline]
  simp [lineLinkBytes, ht, hus]

/-- Settles O3: the tokens of a line are its mnemonic and its operands, and the mnemonic selects the expansion. -/
theorem pseudoCommandsExpand : Obligations.PseudoCommandsExpand := by
  refine ⟨fun t u v l r x ht hu hv => ?_, fun t us l p ht hus => ?_, fun t us l c ht hus => ?_⟩
  · have hline := assembleLine_linkReg (m := "CFGW".toList) (by simp [Clean]) assembleTokens_cfgw ht hu hv
    simpa [expandCfgw, lowHalfOf, highHalfOf] using hline
  · have hline := assembleLine_linkBytes (m := "TXFRAME".toList) (by simp [Clean]) assembleTokens_txframe ht hus
    simpa [expandTxframe, Function.comp_def] using hline
  · have hline := assembleLine_linkBytes (m := "RXSEQ".toList) (by simp [Clean]) assembleTokens_rxseq ht hus
    simpa [expandRxseq, Function.comp_def] using hline

end Sys2Proof.Machine

namespace Sys2Proof.Machine

/-! ### The reserved and illegal words (`30_encoding.md` R85) -/

theorem cfgSel_writable (r : RegSel) : (cfgSelExists r && cfgSelWritable r) = decide (r.toNat < 5) := by
  revert r; decide

/-- The word of a command is on R85's list only for its selector. -/
theorem reservedWord_encode (i : Instr) : reservedWord (encode i) = false ↔ i.wf = true := by
  cases i with
  | rxb l b | txd l b => simp [reservedWord, encode, Instr.wf, toNat_byteArg, b.isLt]
  | cfgl l r h | cfgh l r h => simp [reservedWord, encode, Instr.wf, cfgSel_writable]
  | cfgr l r => simp [reservedWord, encode, Instr.wf, cfgSelExists]
  | strd r => simp [reservedWord, encode, Instr.wf, strdSelExists]
  | _ => simp [reservedWord, encode, Instr.wf]

/-- R85's list holds every word that spells no command: a word off the list has its must-be-zero fields zero. -/
theorem exists_decode_of_not_reserved {w : Word} (h : reservedWord w = false) : ∃ i, decode w = .ok i := by
  induction w using word_cases with
  | nop sel link arg | rxqp sel link arg | txqp sel link arg =>
    obtain ⟨rfl, rfl, rfl⟩ : sel = 0 ∧ link = 0 ∧ arg = 0 := by simpa [reservedWord, and_assoc] using h
    simp
  | rxb sel link arg | txd sel link arg =>
    obtain ⟨rfl, harg⟩ : sel = 0 ∧ arg.toNat < 256 := by simpa [reservedWord] using h
    simp [harg]
  | txs sel link arg | txe sel link arg | linit sel link arg =>
    obtain ⟨rfl, rfl⟩ : sel = 0 ∧ arg = 0 := by simpa [reservedWord] using h
    simp
  | fchk sel link arg | slrl sel link arg =>
    obtain rfl : arg = 0 := by simpa [reservedWord] using h
    simp
  | slrd sel link arg | cfgl sel link arg | cfgh sel link arg => simp
  | cfgr sel link arg =>
    obtain ⟨-, rfl⟩ : sel.toNat < 7 ∧ arg = 0 := by simpa [reservedWord] using h
    simp
  | strd sel link arg =>
    obtain ⟨⟨-, rfl⟩, rfl⟩ : (sel.toNat < 6 ∧ link = 0) ∧ arg = 0 := by simpa [reservedWord] using h
    simp
  | reserved sel link arg => simp [reservedWord] at h

theorem reservedWord_eq_false_iff {w : Word} : reservedWord w = false ↔ ∃ i, decode w = .ok i ∧ i.wf = true := by
  constructor
  · intro h
    obtain ⟨i, hi⟩ := exists_decode_of_not_reserved h
    exact ⟨i, hi, (reservedWord_encode i).mp (encode_of_decode hi ▸ h)⟩
  · rintro ⟨i, hi, hwf⟩
    rw [decode_eq_ok_iff.mp hi]
    exact (reservedWord_encode i).mpr hwf

/-- A reserved or read-only selector is the first check of its command (`44_control.md` R240). -/
theorem exec_illegal {s : State} {i : Instr} (hs : s.Running) (hi : i.wf = false) :
    exec i s = .next (s.takeFault .illegalCommand (encode i)) := by
  cases i with
  | cfgl l r v | cfgh l r v =>
    have hr : ¬ r.toNat < 5 := by simpa [Instr.wf, cfgSel_writable] using hi
    refine (State.command_running hs _ _).trans ?_
    rw [cfgWriteCheck_eq, if_neg hr, State.finish_raise]
  | cfgr l r =>
    have hr : ¬ r.toNat < 7 := by simpa [Instr.wf, cfgSelExists] using hi
    refine (State.command_running hs _ _).trans ?_
    rw [cfgReadCheck_eq, if_neg hr, State.finish_raise]
  | strd r =>
    have hr : ¬ r.toNat < 6 := by simpa [Instr.wf, strdSelExists] using hi
    refine (State.command_running hs _ _).trans ?_
    rw [strdCheck_eq, if_neg hr, State.finish_raise]
  | _ => cases hi

/-- A word on R85's list is refused by the decoder or by its command's selector check. -/
theorem State.meetWord_reserved {s : State} {w : Word} (hs : s.Running) (hw : reservedWord w = true) :
    s.meetWord w = .next (s.takeFault .illegalCommand w) := by
  cases hd : decode w with
  | error e => exact State.meetWord_illegal hd hs
  | ok i =>
    have hwf : i.wf = false := by
      rw [← Bool.not_eq_true, ← reservedWord_encode, encode_of_decode hd, hw]
      exact Bool.noConfusion
    rw [State.meetWord_ok hd, exec_illegal hs hwf, encode_of_decode hd]

/-! ### The step by the head of the schedule (`20_memory.md` R68) -/

theorem step_command {s : State} {a : Agent} {w : Word} {rest : List Event} (h : s.pending = .command a w :: rest) :
    step s = (s.accept a rest).meetWord w := by
  rw [step, h]

theorem step_reset {s : State} {rest : List Event} (h : s.pending = .reset :: rest) :
    step s = .next (s.setPending rest).applyReset := by
  rw [step, h]

/-- Settles O5: a word on the list takes the fault IllegalCommand, and the words off it are the well-formed
commands. -/
theorem reservedWordsFault : Obligations.ReservedWordsFault := by
  refine ⟨fun s a w rest hp hs hw => ?_, fun _ => reservedWord_eq_false_iff⟩
  have hs' : (s.accept a rest).Running := hs
  exact (step_command hp).trans (State.meetWord_reserved hs' hw)

/-- Settles O6, by the head of the schedule; the reset input leaves the model's own fields alone. -/
theorem stepRunsDecodedCommand : Obligations.StepRunsDecodedCommand :=
  ⟨fun _ _ _ _ _ hp hi => (step_command hp).trans (State.meetWord_ok hi _),
    fun _ _ hp => ⟨_, step_reset hp, rfl, rfl, rfl⟩⟩

end Sys2Proof.Machine

namespace Sys2Proof.Machine

/-! ### The table of the CRC and its generator (`40_codec.md` R121) -/

/-- The generator's values for the `n` bytes from `k` on. -/
def crctsFrom (k n : Nat) : List Half := (List.range' k n).map fun i => crct (BitVec.ofNat 8 i)

theorem crctsFrom_append (k m n : Nat) : crctsFrom k m ++ crctsFrom (k + m) n = crctsFrom k (m + n) := by
  rw [crctsFrom, crctsFrom, ← List.map_append, List.range'_append_1, crctsFrom]

/-- The printed table is the list of the generator's values, a quarter of it at a time. -/
theorem crctPrinted_eq : crctPrinted = crctsFrom 0 256 := by
  have rows0 : crctPrinted0 = crctsFrom 0 64 := by decide
  have rows1 : crctPrinted1 = crctsFrom 64 64 := by decide
  have rows2 : crctPrinted2 = crctsFrom 128 64 := by decide
  have rows3 : crctPrinted3 = crctsFrom 192 64 := by decide
  rw [crctPrinted, rows0, rows1, rows2, rows3, crctsFrom_append 0 64, crctsFrom_append 0 128, crctsFrom_append 0 192]

theorem getElem?_crctsFrom {k n i : Nat} (h : i < n) : (crctsFrom k n)[i]? = some (crct (BitVec.ofNat 8 (k + i))) := by
  simp [crctsFrom, h]

/-- Settles O27, by the generator's 256 values. -/
theorem generatorGivesPrintedTable : Obligations.GeneratorGivesPrintedTable := by
  rw [Obligations.GeneratorGivesPrintedTable, crctPrinted_eq]
  refine ⟨by rw [crctsFrom, List.length_map, List.length_range'], fun k => ?_⟩
  rw [getElem?_crctsFrom k.isLt, Nat.zero_add, BitVec.ofNat_toNat, BitVec.setWidth_eq]

/-! ### The wire form of a byte (`40_codec.md` R112, R116 to R118) -/

theorem needsEsc_eq_true_iff {b : Byte} {a : Word} :
    needsEsc b a = true ↔ b = flagByte ∨ b = escByte ∨ b.toNat < 0x20 ∧ a.getLsbD b.toNat = true := by
  simp [needsEsc, accmMarks, or_assoc]

theorem needsEsc_eq_false_iff {b : Byte} {a : Word} :
    needsEsc b a = false ↔ b ≠ flagByte ∧ b ≠ escByte ∧ (b.toNat < 0x20 → a.getLsbD b.toNat = false) := by
  simp [← Bool.not_eq_true, needsEsc_eq_true_iff]

/-- R112: bit 5 of a control byte is clear. -/
theorem xor_xorValue_of_lt {b : Byte} (h : b.toNat < 0x20) : b ^^^ xorValue = b + 0x20 := by
  revert b
  decide

/-- Settles O28, by the byte's class under the map. -/
theorem stuffedFormOfEachByte : Obligations.StuffedFormOfEachByte := by
  intro b a
  refine ⟨?flag, ?esc, fun hlt hset => ?marked, fun hlt hclear => ?unmarked, fun hge hflag hesc => ?plain⟩
  case flag => rintro rfl; exact stuff_escaped (needsEsc_eq_true_iff.mpr (.inl rfl))
  case esc => rintro rfl; exact stuff_escaped (needsEsc_eq_true_iff.mpr (.inr (.inl rfl)))
  case marked =>
    rw [stuff_escaped (needsEsc_eq_true_iff.mpr (.inr (.inr ⟨hlt, hset⟩))), xor_xorValue_of_lt hlt]
    rfl
  case unmarked =>
    have hne (c : Byte) (hc : 0x20 ≤ c.toNat) : b ≠ c := by rintro rfl; omega
    exact stuff_verbatim (needsEsc_eq_false_iff.mpr ⟨hne _ (by decide), hne _ (by decide), fun _ => hclear⟩)
  case plain =>
    exact stuff_verbatim (needsEsc_eq_false_iff.mpr ⟨hflag, hesc, fun hlt => absurd hlt (Nat.not_lt.mpr hge)⟩)

/-! ### The encoded frame (`40_codec.md` R111, R118) -/

theorem fcsBytes_length (f : Half) : (fcsBytes f).length = 2 := rfl

/-- R118: the frame's body is the stuffed form of the payload and its FCS bytes. -/
theorem encodeFrame_eq (p : List Byte) (a : Word) :
    encodeFrame p a = [flagByte] ++ stuffAll (p ++ fcsBytes (fcsOver fcsSeed p)) a ++ [flagByte] := by
  simp [encodeFrame, frameTail, stuffAll_append]

/-- A byte that is escaped is not `0x5E`, the one byte whose escaped form would be a flag. -/
theorem xor_xorValue_ne_flagByte {b : Byte} {a : Word} (h : needsEsc b a = true) : b ^^^ xorValue ≠ flagByte := by
  intro hflag
  have hb : b = flagByte ^^^ xorValue := by rw [← hflag, BitVec.xor_assoc, BitVec.xor_self, BitVec.xor_zero]
  subst hb
  exact absurd (needsEsc_eq_true_iff.mp h) (by simp [flagByte, xorValue, escByte])

theorem flagByte_notMem_stuff (b : Byte) (a : Word) : flagByte ∉ stuff b a := by
  cases h : needsEsc b a with
  | true => simpa [stuff_escaped h] using ⟨by decide, (xor_xorValue_ne_flagByte h).symm⟩
  | false => simpa [stuff_verbatim h] using (needsEsc_eq_false_iff.mp h).1.symm

theorem flagByte_notMem_stuffAll (p : List Byte) (a : Word) : flagByte ∉ stuffAll p a := by
  simp [stuffAll, flagByte_notMem_stuff]

theorem stuffAll_length_bounds (p : List Byte) (a : Word) :
    p.length ≤ (stuffAll p a).length ∧ (stuffAll p a).length ≤ 2 * p.length := by
  induction p with
  | nil => simp
  | cons b p ih =>
    have := stuff_length b a
    simp only [stuffAll_cons, List.length_append, List.length_cons]
    omega

/-- Settles O29, by the stuffed form of every byte: it holds no flag, and is one or two bytes long. -/
theorem encodedFrameHasNoInnerFlag : Obligations.EncodedFrameHasNoInnerFlag := by
  intro p a
  have hlen := stuffAll_length_bounds (p ++ fcsBytes (fcsOver fcsSeed p)) a
  refine ⟨⟨_, encodeFrame_eq p a, flagByte_notMem_stuffAll _ a⟩, ?_⟩
  rw [encodeFrame_eq]
  simp only [List.length_append, List.length_singleton, fcsBytes_length] at hlen ⊢
  omega

/-! ### The residue of a valid frame (`40_codec.md` R120, R123, R124) -/

/-- R120 by the two halves of the running FCS. -/
theorem crc_eq (f : Half) (b : Byte) : crc f b = f >>> 8 ^^^ crct (lowByte f ^^^ b) := by
  have hindex : (f ^^^ b.setWidth 16).setWidth 8 = lowByte f ^^^ b := by
    ext i
    simp [lowByte]
  rw [crc, hindex]

theorem lowByte_xor (u v : Half) : lowByte (u ^^^ v) = lowByte u ^^^ lowByte v := by
  simp [lowByte, BitVec.extractLsb'_xor]

theorem highByte_xor (u v : Half) : highByte (u ^^^ v) = highByte u ^^^ highByte v := by
  simp [highByte, BitVec.extractLsb'_xor]

theorem lowByte_ushiftRight (f : Half) : lowByte (f >>> 8) = highByte f := by
  ext i
  simp [lowByte, highByte]

theorem ushiftRight_ushiftRight (f : Half) : f >>> 8 >>> 8 = 0 := by
  rw [← BitVec.shiftRight_add]
  exact BitVec.ushiftRight_eq_zero (Nat.le_refl 16)

theorem highByte_ushiftRight (f : Half) : highByte (f >>> 8) = 0 := by
  rw [← lowByte_ushiftRight, ushiftRight_ushiftRight]
  rfl

theorem eq_of_lowByte_of_ushiftRight {f g : Half} (hlow : lowByte f = lowByte g) (hhigh : f >>> 8 = g >>> 8) :
    f = g := by
  have hlow := congrArg BitVec.toNat hlow
  have hhigh := congrArg BitVec.toNat hhigh
  simp only [lowByte, BitVec.extractLsb'_toNat, BitVec.toNat_ushiftRight, Nat.shiftRight_zero] at hlow hhigh
  exact BitVec.eq_of_toNat_eq (by omega)

/-- Whatever the running FCS is, its own two complemented bytes bring it to the good constant: each byte meets its
complement in the table's index. -/
theorem fcsOver_fcsBytes (f : Half) : fcsOver f (fcsBytes f) = goodFcs := by
  have hlow : crc f (lowByte (fcsComplement f)) = f >>> 8 ^^^ 0x0F78 := by
    rw [crc_eq, fcsComplement, lowByte_xor, ← BitVec.xor_assoc, BitVec.xor_self, BitVec.zero_xor]
    rfl
  have hhigh : crc (f >>> 8 ^^^ 0x0F78) (highByte (fcsComplement f)) = goodFcs := by
    have hindex : highByte f ^^^ 0x78 ^^^ (highByte f ^^^ 0xFF) = 0x87 := by
      rw [BitVec.xor_comm (highByte f) 0x78, BitVec.xor_assoc, ← BitVec.xor_assoc (highByte f), BitVec.xor_self]
      rfl
    rw [crc_eq, fcsComplement, highByte_xor, lowByte_xor, lowByte_ushiftRight]
    refine (congrArg (_ ^^^ crct ·) hindex).trans ?_
    rw [BitVec.ushiftRight_xor_distrib, ushiftRight_ushiftRight]
    rfl
  simp only [fcsBytes, fcsOver_cons, fcsOver_nil, hlow, hhigh]

/-- Settles O30, by folding the payload first. -/
theorem validFrameHasGoodResidue : Obligations.ValidFrameHasGoodResidue := fun p =>
  (fcsOver_append 0xFFFF p _).trans (fcsOver_fcsBytes _)

/-! ### Single-bit errors (`40_codec.md` R127) -/

/-- What a shift step of the generator XORs into the shifted value, by the bit shifted out. -/
def crcFeedback (bit : Bool) : Half := if bit = true then 0x8408 else 0

theorem crcFeedback_xor (b c : Bool) : crcFeedback (b ^^ c) = crcFeedback b ^^^ crcFeedback c := by
  revert b c
  decide

theorem crcShift_eq (v : Half) : crcShift v = v >>> 1 ^^^ crcFeedback (v.getLsbD 0) := by
  unfold crcShift crcFeedback
  split <;> simp

/-- A shift step of the generator is linear. -/
theorem crcShift_xor (u v : Half) : crcShift (u ^^^ v) = crcShift u ^^^ crcShift v := by
  simp only [crcShift_eq, BitVec.getLsbD_xor, crcFeedback_xor, BitVec.ushiftRight_xor_distrib]
  ac_rfl

theorem crct_xor (j k : Byte) : crct (j ^^^ k) = crct j ^^^ crct k := by
  simp only [crct, BitVec.setWidth_xor, crcShift_xor]

/-- The high bytes of the table's entries differ, so the high byte of an FCS tells which entry went into it. -/
theorem highByte_crct_injective : Function.Injective fun k => highByte (crct k) := by
  have hzero : ∀ k : Byte, highByte (crct k) = 0 → k = 0 := by decide
  intro j k h
  have hxor : highByte (crct (j ^^^ k)) = 0 := by
    rw [crct_xor, highByte_xor]
    exact BitVec.xor_eq_zero_iff.mpr h
  exact BitVec.xor_eq_zero_iff.mp (hzero _ hxor)

theorem crct_injective : Function.Injective crct :=
  Function.Injective.of_comp (f := highByte) highByte_crct_injective

/-- The FCS update by a fixed byte loses nothing of the running FCS. -/
theorem crc_left_injective (b : Byte) : Function.Injective fun f => crc f b := by
  intro f g h
  have h : crc f b = crc g b := h
  rw [crc_eq, crc_eq] at h
  have hindex : lowByte f ^^^ b = lowByte g ^^^ b := highByte_crct_injective (by
    simpa [highByte_xor, highByte_ushiftRight] using congrArg highByte h)
  rw [hindex] at h
  exact eq_of_lowByte_of_ushiftRight ((BitVec.xor_left_inj b).mp hindex) ((BitVec.xor_left_inj _).mp h)

theorem crc_right_injective (f : Half) : Function.Injective (crc f) := by
  intro b c h
  rw [crc_eq, crc_eq] at h
  exact (BitVec.xor_right_inj _).mp (crct_injective ((BitVec.xor_right_inj _).mp h))

theorem fcsOver_injective (c : List Byte) : Function.Injective fun f => fcsOver f c := by
  induction c with
  | nil => exact fun _ _ h => h
  | cons b c ih => exact ih.comp (crc_left_injective b)

/-- Replacing one byte by another changes the FCS. -/
theorem fcsOver_set_ne {d : List Byte} {b : Byte} : ∀ {j : Nat} (h : j < d.length) (f : Half), b ≠ d[j] →
    fcsOver f (d.set j b) ≠ fcsOver f d := by
  induction d with
  | nil => intro j h; exact absurd h (Nat.not_lt_zero j)
  | cons c d ih =>
    intro j h f hne
    cases j with
    | zero => exact (fcsOver_injective d).ne ((crc_right_injective f).ne hne)
    | succ j => exact ih (Nat.lt_of_succ_lt_succ h) (crc f c) hne

theorem one_shiftLeft_ne_zero {n : Nat} (hn : n < 8) : 1#8 <<< n ≠ 0 := by
  revert n
  decide

/-- Settles O31, for a changed byte of any kind. -/
theorem singleBitErrorIsDetected : Obligations.SingleBitErrorIsDetected := by
  intro d hgood j hj n hn
  rw [← hgood]
  refine fcsOver_set_ne hj _ fun h => one_shiftLeft_ne_zero hn ?_
  exact (BitVec.xor_right_inj _).mp (h.trans BitVec.xor_zero.symm)

end Sys2Proof.Machine

namespace Sys2Proof.Machine

/-! ### The class of a received byte (`40_codec.md` R115) -/

theorem classify_escaped (cnt : Half) (b : Byte) (accm : Word) : classify true cnt b accm = .escaped := by
  simp [classify]

theorem classify_escByte (cnt : Half) (accm : Word) : classify false cnt escByte accm = .escape := by
  simp [classify]

theorem flagByte_ne_escByte : flagByte ≠ escByte := by decide

theorem classify_flagByte_empty (accm : Word) : classify false 0 flagByte accm = .empty := by
  simp [classify, flagByte_ne_escByte]

theorem classify_flagByte_frameEnd {cnt : Half} (h : cnt ≠ 0) (accm : Word) :
    classify false cnt flagByte accm = .frameEnd := by
  rw [classify, if_neg Bool.false_ne_true, if_neg flagByte_ne_escByte, if_pos ⟨rfl, h⟩]

theorem classify_plain {b : Byte} {accm : Word} (cnt : Half) (hflag : b ≠ flagByte) (hesc : b ≠ escByte)
    (hdrop : rxDrop b accm = false) : classify false cnt b accm = .data := by
  simp [classify, hflag, hesc, hdrop]

/-- R125: a byte that the receive map drops is one that a covering transmit map escapes. -/
theorem rxDrop_of_covered {b : Byte} {accm a : Word} (hcover : accm &&& ~~~ a = 0)
    (h : needsEsc b a = false) : rxDrop b accm = false := by
  obtain ⟨-, -, hunmarked⟩ := needsEsc_eq_false_iff.mp h
  by_cases hlt : b.toNat < 0x20
  · have hbit := congrArg (BitVec.getLsbD · b.toNat) hcover
    rw [BitVec.getLsbD_and, BitVec.getLsbD_not, hunmarked hlt] at hbit
    simpa [rxDrop, accmMarks, hlt] using hbit
  · simp [rxDrop, accmMarks, hlt]

/-! ### One received byte, by its class (`41_receive.md` R141) -/

theorem exec_rxb_of_body {s t : State} {l : LinkNo} {b : Byte} (hs : s.Running) (h : rxbBody l b s = .done t) :
    exec (.rxb l b) s = .next t.noReply :=
  (State.command_running hs (.rxb l b) (rxbBody l b s)).trans (congrArg (s.finish (.rxb l b)) h)

section
variable {s : State} {l : LinkNo} {k : Link}

/-- R142: after an escape the byte is data, and the escape is over. -/
theorem exec_rxb_escaped (hk : s.link l = { k with esc := true }) (hs : s.Running) (hl : l.toNat < s.params.nLinks)
    (hesc : k.esc = false) (hown : (k.slot k.act).own = .prod) (b : Byte) :
    exec (.rxb l b) s = .next (s.setLink l (k.accept s.params.slotCap (unescape b))).noReply :=
  exec_rxb_of_body hs (by
    have hclear : { s.link l with esc := false } = k := by rw [hk, ← hesc]
    rw [rxbBody, State.onLink_ok hl, hclear, hk, classify_escaped]
    exact State.acceptData_free hown (unescape b))

variable (hk : s.link l = k) (hs : s.Running) (hl : l.toNat < s.params.nLinks) (hesc : k.esc = false)
include hk hs hl hesc

theorem exec_rxb_escByte : exec (.rxb l escByte) s = .next (s.setLink l { k with esc := true }).noReply :=
  exec_rxb_of_body hs (by rw [rxbBody, State.onLink_ok hl, hk, hesc, classify_escByte])

theorem exec_rxb_flagByte_empty (hcnt : k.cnt = 0) : exec (.rxb l flagByte) s = .next s.noReply :=
  exec_rxb_of_body hs (by rw [rxbBody, State.onLink_ok hl, hk, hesc, hcnt, classify_flagByte_empty])

theorem exec_rxb_flagByte_frameEnd (hcnt : k.cnt ≠ 0) :
    exec (.rxb l flagByte) s = .next (s.completeFrame l k).noReply :=
  exec_rxb_of_body hs (by rw [rxbBody, State.onLink_ok hl, hk, hesc, classify_flagByte_frameEnd hcnt])

theorem exec_rxb_plain {b : Byte} (hown : (k.slot k.act).own = .prod) (hflag : b ≠ flagByte) (hmarker : b ≠ escByte)
    (hdrop : rxDrop b k.accmRx = false) :
    exec (.rxb l b) s = .next (s.setLink l (k.accept s.params.slotCap b)).noReply :=
  exec_rxb_of_body hs (by
    rw [rxbBody, State.onLink_ok hl, hk, hesc, classify_plain _ hflag hmarker hdrop]
    exact State.acceptData_free hown b)

end

/-! ### Runs of received bytes (`30_encoding.md` R88) -/

theorem execAll_append {is : List Instr} (js : List Instr) {s t : State} (h : execAll is s = .next t) :
    execAll (is ++ js) s = execAll js t := by
  induction is generalizing s with
  | nil => cases h; rfl
  | cons i is ih =>
    simp only [List.cons_append, execAll] at h ⊢
    split at h
    · exact ih h
    · cases h
    · cases h

theorem execAll_cons {i : Instr} (is : List Instr) {s t : State} (h : exec i s = .next t) :
    execAll (i :: is) s = execAll is t := by
  rw [execAll, h]

theorem expandRxseq_append (l : LinkNo) (c d : List Byte) :
    expandRxseq l (c ++ d) = expandRxseq l c ++ expandRxseq l d := List.map_append

theorem State.setLink_getLink {s : State} {l : LinkNo} (hl : l.toNat < s.links.length) :
    s.setLink l (s.link l) = s := by
  rw [State.setLink, State.link, List.getD_eq_getElem _ _ hl, List.set_getElem_self]

/-- A link's contents and a response that the next command writes over leave no trace. -/
theorem State.setLink_noReply_setLink (s : State) (l : LinkNo) (k k' : Link) :
    ((s.setLink l k).noReply.setLink l k').noReply = (s.setLink l k').noReply := by
  rw [← State.setLink_setLink s l k k']
  rfl

/-! ### A frame being received (`40_codec.md` R125) -/

theorem sat16_succ {n : Half} (h : n.toNat < 0xFFFF) : sat16 (n.toNat + 1) = n + 1 := by
  apply BitVec.eq_of_toNat_eq
  rw [sat16_toNat]
  bv_omega

/-- A byte written right after those that are there reads back with them. -/
theorem Memory.bytes_write_length {m : Memory} {c : List Byte} (h : m.bytes c.length = some c) (d : Byte) :
    (m.write c.length d).bytes (c.length + 1) = some (c ++ [d]) := by
  obtain ⟨-, hread⟩ := Memory.bytes_eq_some.mp h
  refine Memory.bytes_eq_some.mpr ⟨by simp, fun j hj => ?_⟩
  rw [Memory.read_write]
  by_cases hlast : j = c.length
  · subst hlast
    simp
  · have hlt : j < c.length := by rw [List.length_append, List.length_singleton] at hj; omega
    rw [if_neg (Ne.symm hlast), hread j hlt, List.getElem_append_left hlt]

/-- `k'` is the link `k` after the bytes `c` of a frame, all of them stored in the active slot, so far as the receiver
depends on it. -/
structure Link.FrameStored (k : Link) (c : List Byte) (k' : Link) : Prop where
  esc : k'.esc = false
  act : k'.act = k.act
  accmRx : k'.accmRx = k.accmRx
  maxRx : k'.maxRx = k.maxRx
  slots : k'.slots.length = k.slots.length
  own : (k'.slot k.act).own = .prod
  cnt : k'.cnt.toNat = c.length
  fill : (k'.slot k.act).fill = k'.cnt
  bytes : (k'.slot k.act).data.bytes c.length = some c

/-- A link in its initial receive state has stored nothing. -/
theorem State.Inv.frameStored_nil {s : State} {l : LinkNo} (hs : s.Inv) (hl : l.toNat < s.params.nLinks)
    (hesc : (s.link l).esc = false) (hcnt : (s.link l).cnt = 0)
    (hown : ((s.link l).slot (s.link l).act).own = .prod) : (s.link l).FrameStored [] (s.link l) := by
  obtain ⟨-, hact⟩ := hs.link_shapeOk l
  obtain ⟨-, -, -, hfill, -⟩ := hs.receive _ (State.link_mem hs.shape hl) _ hact
  have hzero : ((s.link l).slot (s.link l).act).fill = (s.link l).cnt := by
    have := hfill hown rfl
    rw [hcnt] at this ⊢
    exact BitVec.eq_of_toNat_eq (Nat.le_zero.mp this)
  exact ⟨hesc, rfl, rfl, rfl, rfl, hown, congrArg BitVec.toNat hcnt, hzero, rfl⟩

section
variable {k k' : Link} {c : List Byte}

/-- R144: while there is room, an accepted byte is stored right after the others. -/
theorem Link.FrameStored.accept {cap : Nat} (h : k.FrameStored c k') (hact : k.act.toNat < k.slots.length)
    (hroom : c.length < min k.maxRx.toNat cap) (d : Byte) : k.FrameStored (c ++ [d]) (k'.accept cap d) := by
  obtain ⟨hesc, hact', haccm, hmax, hslots, hown, hcnt, hfill, hbytes⟩ := h
  have hstores : k'.stores cap = true := by
    rw [Link.stores_iff, hact', hcnt, hmax]
    exact ⟨hfill, Nat.lt_min.mp hroom⟩
  have hsat : sat16 (k'.cnt.toNat + 1) = k'.cnt + 1 := sat16_succ (by omega)
  have hslot : (k'.setSlot k.act (k'.stored d)).countByte.slot k.act = k'.stored d :=
    Link.slot_setSlot_same _ (hslots ▸ hact)
  rw [Link.accept_stored hstores, hact']
  refine ⟨hesc, hact', haccm, hmax, (Link.slots_length_setSlot _ _ _).trans hslots, ?own, ?cnt, ?fill, ?bytes⟩
  case own => rw [hslot, Link.stored_own, hact', hown]
  case cnt => rw [Link.countByte_cnt, Link.setSlot_cnt, sat16_toNat, List.length_append, List.length_singleton]; omega
  case fill => rw [hslot, Link.stored_fill, hact', hfill, Link.countByte_cnt, Link.setSlot_cnt, hsat]
  case bytes =>
    rw [hslot, Link.stored_data, hact', hcnt, List.length_append, List.length_singleton]
    exact Memory.bytes_write_length hbytes d

variable {s : State} {l : LinkNo} {a : Word} (hs : s.Running) (hl : l.toNat < s.params.nLinks)
  (hlisted : l.toNat < s.links.length)
include hs hl hlisted

/-- The flag after the bytes of a frame completes it (R146). -/
theorem Link.FrameStored.exec_rxb_flagByte (h : k.FrameStored c k') (hc : c ≠ [])
    (hroom : s.rxq.length < s.params.rxqCap) :
    exec (.rxb l flagByte) (s.setLink l k').noReply =
      .next ((s.setLink l ((k'.setSlot k.act k'.completed).nextFrame s.params.nSlots)).pushRxq
        { link := l, slot := k.act }).noReply := by
  have hk : (s.setLink l k').noReply.link l = k' := State.link_setLink_same k' hlisted
  have hcnt : k'.cnt ≠ 0 := by
    intro hzero
    have hlen := h.cnt
    rw [hzero] at hlen
    exact hc (List.length_eq_zero_iff.mp hlen.symm)
  rw [exec_rxb_flagByte_frameEnd hk hs hl h.esc hcnt, State.completeFrame_room (s := (s.setLink l k').noReply) hroom,
    h.act, ← State.setLink_setLink s l k' (Link.nextFrame _ _)]
  rfl

variable (hcover : k.accmRx &&& ~~~ a = 0)
include hcover

/-- The wire form of a byte, received, is the byte accepted (R113, R117, R142, R147). -/
theorem Link.FrameStored.execAll_stuff (h : k.FrameStored c k') (d : Byte) :
    execAll (expandRxseq l (stuff d a)) (s.setLink l k').noReply =
      .next (s.setLink l (k'.accept s.params.slotCap d)).noReply := by
  have hown : (k'.slot k'.act).own = .prod := h.act ▸ h.own
  have hk : (s.setLink l k').noReply.link l = k' := State.link_setLink_same k' hlisted
  have hmark : (s.setLink l { k' with esc := true }).noReply.link l = { k' with esc := true } :=
    State.link_setLink_same _ hlisted
  cases hd : needsEsc d a with
  | true =>
    have hfirst := exec_rxb_escByte hk hs hl h.esc
    have hsecond := exec_rxb_escaped hmark hs hl h.esc hown (d ^^^ xorValue)
    rw [State.setLink_noReply_setLink] at hfirst hsecond
    rw [unescape_xorValue] at hsecond
    rw [stuff_escaped hd]
    exact (execAll_cons _ hfirst).trans (execAll_cons [] hsecond)
  | false =>
    obtain ⟨hflag, hmarker, -⟩ := needsEsc_eq_false_iff.mp hd
    have hdrop : rxDrop d k'.accmRx = false := h.accmRx ▸ rxDrop_of_covered hcover hd
    have hplain := exec_rxb_plain hk hs hl h.esc hown hflag hmarker hdrop
    rw [State.setLink_noReply_setLink] at hplain
    rw [stuff_verbatim hd]
    exact execAll_cons [] hplain

/-- The stuffed form of bytes for which there is room, received, leaves them stored. -/
theorem Link.FrameStored.execAll_stuffAll (hact : k.act.toNat < k.slots.length) (e : List Byte) (h : k.FrameStored c k')
    (hroom : c.length + e.length ≤ min k.maxRx.toNat s.params.slotCap) :
    ∃ k'', execAll (expandRxseq l (stuffAll e a)) (s.setLink l k').noReply = .next (s.setLink l k'').noReply ∧
      k.FrameStored (c ++ e) k'' := by
  induction e generalizing c k' with
  | nil => exact ⟨k', rfl, c.append_nil.symm ▸ h⟩
  | cons d e ih =>
    rw [List.length_cons] at hroom
    have hd := h.accept hact (show c.length < min k.maxRx.toNat s.params.slotCap by omega) d
    obtain ⟨k'', hrun, hstored⟩ := ih hd (by rw [List.length_append, List.length_singleton]; omega)
    rw [List.append_assoc] at hstored
    refine ⟨k'', ?_, hstored⟩
    rw [stuffAll_cons, expandRxseq_append, execAll_append _ (h.execAll_stuff hs hl hlisted hcover d), hrun]

end

/-- Settles O37: the opening flag does nothing, each stuffed byte is stored after those before it, and the closing
flag completes the frame. -/
theorem encodedFrameIsReceivedWhole : Obligations.EncodedFrameIsReceivedWhole := by
  intro s l p a hs hrun hl hesc hcnt hown hcover hroom hrxq
  have hlisted := State.lt_links_length hs.shape hl
  obtain ⟨hlen, hact⟩ := hs.link_shapeOk l
  rw [← hlen] at hact
  have hframe : (p ++ fcsBytes (fcsOver fcsSeed p)).length = p.length + 2 := by
    rw [List.length_append, fcsBytes_length]
  obtain ⟨k, hbody, hstored⟩ := (hs.frameStored_nil hl hesc hcnt hown).execAll_stuffAll hrun hl hlisted hcover hact
    (p ++ fcsBytes (fcsOver fcsSeed p)) (by rw [hframe, List.length_nil, Nat.zero_add]; exact hroom)
  rw [State.setLink_getLink hlisted] at hbody
  rw [List.nil_append] at hstored
  have hopen := exec_rxb_flagByte_empty rfl hrun hl hesc hcnt
  have hclose := hstored.exec_rxb_flagByte hrun hl hlisted
    (List.append_ne_nil_of_right_ne_nil p (List.cons_ne_nil _ _)) hrxq
  have hwire : expandRxseq l (encodeFrame p a) =
      .rxb l flagByte :: (expandRxseq l (stuffAll (p ++ fcsBytes (fcsOver fcsSeed p)) a) ++ [.rxb l flagByte]) := by
    rw [encodeFrame_eq, expandRxseq_append, expandRxseq_append, List.append_assoc]
    rfl
  have hslot := Link.slot_setSlot_same k.completed (hstored.slots ▸ hact)
  rw [hwire, execAll_cons _ hopen, execAll_append _ hbody, execAll_cons [] hclose]
  refine ⟨_, rfl, rfl, ?_⟩
  rw [State.noReply_link, State.pushRxq_link, State.link_setLink_same _ hlisted, Link.slot_nextFrame, hslot,
    Link.completed_len, Link.completed_fill, Link.completed_data, hstored.act, hstored.fill, hstored.cnt, ← hframe]
  exact ⟨hstored.esc, rfl, rfl, rfl, rfl, hstored.bytes, validFrameHasGoodResidue p⟩

end Sys2Proof.Machine

namespace Sys2Proof.Machine

/-! ### The escape marker, the delimiter and the dropped byte (`40_codec.md` R115, `41_receive.md` R145 to R147) -/

theorem rxDrop_eq_true_iff {b : Byte} {accm : Word} :
    rxDrop b accm = true ↔ b.toNat < 0x20 ∧ accm.getLsbD b.toNat = true := by
  rw [rxDrop, accmMarks, Bool.and_eq_true, decide_eq_true_iff]

theorem classify_dropped {b : Byte} {accm : Word} (cnt : Half) (hflag : b ≠ flagByte) (hesc : b ≠ escByte)
    (hdrop : rxDrop b accm = true) : classify false cnt b accm = .dropped := by
  simp [classify, hflag, hesc, hdrop]

/-- Settles O33: the marker is in a class of its own, and that class does not look at the slot. -/
theorem rxbEscapeMarkerSetsFlag : Obligations.RxbEscapeMarkerSetsFlag :=
  fun _ _ hs hl hesc => exec_rxb_escByte rfl hs hl hesc

/-- Settles O34: the class of the flag is decided by `cnt`, the completion of a frame by the room in the queue, and
the invariant says that a slot being filled is producer-owned. -/
theorem rxbDelimiterCompletesFrame : Obligations.RxbDelimiterCompletesFrame := by
  intro s l hinv hs hl hesc
  refine ⟨exec_rxb_flagByte_empty rfl hs hl hesc, fun hcnt hroom => ?room, fun hcnt hfull => ?full,
    hinv.own_of_cnt hl⟩
  case room =>
    refine (exec_rxb_flagByte_frameEnd rfl hs hl hesc hcnt).trans ?_
    rw [State.completeFrame_room hroom]
    rfl
  case full =>
    refine (exec_rxb_flagByte_frameEnd rfl hs hl hesc hcnt).trans ?_
    rw [State.completeFrame_full hfull.ge]
    rfl

/-! ### A byte accepted as data (`41_receive.md` R143, R144) -/

/-- The count saturates (R13). -/
theorem sat16_succ_eq (n : Half) : sat16 (n.toNat + 1) = if n = 0xFFFF then 0xFFFF else n + 1 := by
  split
  · next hmax => rw [hmax]; rfl
  · next hlt => exact sat16_succ (by bv_omega)

/-- The model's acceptance of a byte is the one that `State.dataAccepted` writes over the fields. -/
theorem State.setLink_accept (s : State) (l : LinkNo) (k : Link) (d : Byte) :
    s.setLink l (k.accept s.params.slotCap d) = s.dataAccepted l k d := by
  have hstores : k.stores s.params.slotCap = true ↔
      (k.slot k.act).fill = k.cnt ∧ k.cnt.toNat < min k.maxRx.toNat s.params.slotCap := by
    rw [Link.stores_iff, Nat.lt_min]
  rw [State.dataAccepted, ← sat16_succ_eq]
  cases h : k.stores s.params.slotCap with
  | true => rw [Link.accept_stored h, if_pos (hstores.mp h)]; rfl
  | false => rw [Link.accept_discarded h, if_neg (hstores.not.mp (Bool.eq_false_iff.mp h))]; rfl

/-- A byte whose body accepts data takes effect in a producer-owned slot, and faults in any other. -/
theorem exec_rxb_of_acceptData {s : State} {l : LinkNo} {k : Link} {b d : Byte} (hs : s.Running)
    (h : rxbBody l b s = s.acceptData l k d) :
    ((k.slot k.act).own = .prod → exec (.rxb l b) s = .next (s.dataAccepted l k d).noReply) ∧
    ((k.slot k.act).own ≠ .prod → exec (.rxb l b) s = .next (s.takeFault .rxSlotBusy (encode (.rxb l b)))) := by
  refine ⟨fun hown => ?free, fun hown => ?busy⟩
  case free =>
    rw [← State.setLink_accept]
    exact exec_rxb_of_body hs (h.trans (State.acceptData_free hown d))
  case busy =>
    have hbody := h.trans (State.acceptData_busy hown d)
    exact (State.command_running hs (.rxb l b) (rxbBody l b s)).trans (congrArg (s.finish (.rxb l b)) hbody)

/-- Settles O32: after an escape every byte is in one class, whose body accepts the unescaped byte. -/
theorem rxbEscapedByteIsData : Obligations.RxbEscapedByteIsData := by
  intro s l b hs hl hesc
  have hbody : rxbBody l b s = s.acceptData l { s.link l with esc := false } (unescape b) := by
    rw [rxbBody, State.onLink_ok hl, hesc, classify_escaped]
  exact exec_rxb_of_acceptData hs hbody

/-- Settles O35: the receive map decides between the two classes that are left when the byte is not reserved. -/
theorem rxbPlainByteIsDroppedOrData : Obligations.RxbPlainByteIsDroppedOrData := by
  intro s l b hs hl hesc hmarker hflag
  rw [← rxDrop_eq_true_iff]
  refine ⟨fun hdrop => exec_rxb_of_body hs ?_, fun hdrop => exec_rxb_of_acceptData hs ?_⟩
  · rw [rxbBody, State.onLink_ok hl, hesc, classify_dropped _ hflag hmarker hdrop]
  · rw [rxbBody, State.onLink_ok hl, hesc, classify_plain _ hflag hmarker (Bool.eq_false_iff.mpr hdrop)]

end Sys2Proof.Machine

namespace Sys2Proof.Machine

/-! ### What a received byte leaves unchanged (`41_receive.md` R141, R144) -/

/-- The next state of a command is one of its effects with another response. -/
theorem exec_effect_response {i : Instr} {s t : State} (h : exec i s = .next t) :
    ∃ u r, Effect s (some i) u ∧ t = { u with response := r } := by
  obtain ⟨u, he, rfl | ⟨v, rfl⟩⟩ := exec_answer h
  · exact ⟨u, _, he, rfl⟩
  · exact ⟨u, _, he, rfl⟩

/-- `k'` is the link `k` with at most its receive state written, in its slots at most the active one, and of their
bytes at most `data[cnt]` of that one, and only where R144 stores. -/
structure Link.ByteReceived (k : Link) (cap : Nat) (k' : Link) : Prop where
  transmit : k.SameTransmit k'
  config : k.SameConfig k'
  slot : ∀ j, j ≠ k.act → k'.slot j = k.slot j
  read : ∀ j n, ¬ (j = k.act ∧ n = k.cnt.toNat ∧ k.stores cap = true) →
    (k'.slot j).data.read n = (k.slot j).data.read n

section
variable {k : Link}

/-- Marking or unmarking an escape stores nothing (R142, R145). -/
theorem Link.byteReceived_esc (k : Link) (cap : Nat) (e : Bool) : k.ByteReceived cap { k with esc := e } where
  transmit := ⟨rfl, rfl, rfl, rfl, rfl, rfl⟩
  config := ⟨rfl, rfl, rfl, rfl, rfl⟩
  slot _ _ := rfl
  read _ _ _ := rfl

theorem Link.ByteReceived.refl (k : Link) (cap : Nat) : k.ByteReceived cap k := k.byteReceived_esc cap k.esc

theorem Link.accept_sameConfig (k : Link) (cap : Nat) (d : Byte) : k.SameConfig (k.accept cap d) := by
  unfold Link.accept
  split <;> exact ⟨rfl, rfl, rfl, rfl, rfl⟩

/-- An accepted byte is stored at `data[cnt]` of the active slot or nowhere (R144). -/
theorem Link.byteReceived_accept (k : Link) (cap : Nat) (d : Byte) : k.ByteReceived cap (k.accept cap d) where
  transmit := k.accept_sameTransmit cap d
  config := k.accept_sameConfig cap d
  slot j hj := (k.slot_accept_cases cap d j).resolve_left (hj ·.1)
  read j n hn := by
    cases h : k.stores cap with
    | false => rw [Link.accept_discarded h, Link.slot_countByte]
    | true =>
      rw [Link.accept_stored h, Link.slot_countByte]
      rcases k.slot_setSlot_cases k.act (k.stored d) j with ⟨rfl, hj⟩ | hj
      · rw [hj, Link.stored_data, Memory.read_write_other _ d fun hcnt => hn ⟨rfl, hcnt.symm, h⟩]
      · rw [hj]

/-- The end of a frame rewrites the active slot but not its bytes (R29, R146). -/
theorem Link.byteReceived_nextFrame {v : Slot} (hdata : v.data = (k.slot k.act).data) (cap nSlots : Nat) :
    k.ByteReceived cap ((k.setSlot k.act v).nextFrame nSlots) where
  transmit := ⟨rfl, rfl, rfl, rfl, rfl, rfl⟩
  config := ⟨rfl, rfl, rfl, rfl, rfl⟩
  slot _ hj := Link.slot_setSlot_other k v hj
  read j n _ := by
    rw [Link.slot_nextFrame]
    rcases k.slot_setSlot_cases k.act v j with ⟨rfl, hj⟩ | hj
    · rw [hj, hdata]
    · rw [hj]

end

section
variable {s u : State} {l m : LinkNo} {b : Byte} {k : Link} {f : State → State}

/-- RXB writes no link but its own, and there only what a received byte may write. -/
theorem LinkWrite.byteReceived (h : LinkWrite s (some (.rxb l b)) m k f) :
    m = l ∧ (s.link m).ByteReceived s.params.slotCap k := by
  cases h with
  | receive h =>
    cases h with
    | escape => exact ⟨rfl, Link.byteReceived_esc _ _ true⟩
    | data _ _ d =>
      obtain ⟨htransmit, hconfig, hslot, hread⟩ :=
        { s.link l with esc := false }.byteReceived_accept s.params.slotCap d
      exact ⟨rfl, htransmit, hconfig, hslot, hread⟩
    | completed => exact ⟨rfl, Link.byteReceived_nextFrame (s.link l).completed_data _ _⟩
    | dropped => exact ⟨rfl, Link.byteReceived_nextFrame (Slot.emptied_data _) _ _⟩
  | transmit h => cases h

/-- Outside the links RXB writes the receive side and the latch only. -/
theorem Effect.rxb_frame (he : Effect s (some (.rxb l b)) u) : s.SameTxQueue u ∧ s.SameVerdicts u ∧ s.SameModel u := by
  cases he with
  | nothing => exact ⟨⟨rfl, rfl⟩, ⟨rfl, rfl⟩, rfl, rfl, rfl, rfl⟩
  | latched => exact ⟨⟨rfl, rfl⟩, ⟨rfl, rfl⟩, rfl, rfl, rfl, rfl⟩
  | write hw =>
    cases hw with
    | receive h => cases h <;> exact ⟨⟨rfl, rfl⟩, ⟨rfl, rfl⟩, rfl, rfl, rfl, rfl⟩
    | transmit h => cases h

theorem Effect.rxb_sameOtherLinks (he : Effect s (some (.rxb l b)) u) : s.SameOtherLinks l u := fun m hm =>
  (he.link m).resolve_right fun ⟨_, hw⟩ => hm hw.byteReceived.1

theorem Effect.rxb_byteReceived (he : Effect s (some (.rxb l b)) u) :
    (s.link l).ByteReceived s.params.slotCap (u.link l) := by
  rcases he.link l with hl | ⟨f, hw⟩
  · rw [hl]
    exact .refl _ _
  · exact hw.byteReceived.2

end

/-- Settles O36: RXB's effects write its own link as a received byte may, the queue of descriptors, its drop counter
and the latch. -/
theorem rxbFrame : Obligations.RxbFrame := by
  intro s t l b h
  obtain ⟨u, r, he, rfl⟩ := exec_effect_response h
  have hother := he.rxb_sameOtherLinks
  obtain ⟨htransmit, hconfig, hslot, hread⟩ := he.rxb_byteReceived
  obtain ⟨htx, hverdicts, hmodel⟩ := he.rxb_frame
  refine ⟨hother, htransmit, hconfig, hslot, htx, hverdicts, hmodel, fun m j n hn => ?_⟩
  by_cases hm : m = l
  · subst hm
    exact hread j n fun hstored => hn ⟨rfl, hstored⟩
  · exact congrArg (fun k : Link => (k.slot j).data.read n) (hother m hm)

end Sys2Proof.Machine

namespace Sys2Proof

/-! ### The command word and the line of a transmit command (`30_encoding.md` R81, R87) -/

theorem packWord_byteArg (op sel : BitVec 4) (link : LinkNo) (b : Byte) :
    packWord op sel link (byteArg b) = op ++ sel ++ link ++ 0x00#8 ++ b :=
  (BitVec.append_assoc (x₁ := op ++ sel ++ link) (x₂ := 0#8) (x₃ := b)).symm

end Sys2Proof

namespace Sys2Proof.Machine

/-- A line whose mnemonic takes a link, for any spelling of it. -/
theorem assembleLine_link {m t : Token} {f : LinkNo → Instr} {l : LinkNo} (hm : Clean m)
    (hline : ∀ args, assembleTokens (m :: args) = lineLink f args) (ht : fieldValue 8 t = some l) :
    assembleLine (m ++ [' '] ++ t) = some [encode (f l)] := by
  rw [assembleLine, tokensFrom_one hm (fieldValue_clean ht), hline]
  simp [lineLink, ht]

/-- A line whose mnemonic takes a link and a data byte, for any spelling of them. -/
theorem assembleLine_linkByte {m t u : Token} {f : LinkNo → Byte → Instr} {l : LinkNo} {b : Byte} (hm : Clean m)
    (hline : ∀ args, assembleTokens (m :: args) = lineLinkByte f args) (ht : fieldValue 8 t = some l)
    (hu : fieldValue 8 u = some b) :
    assembleLine (m ++ [' '] ++ t ++ [',', ' '] ++ u) = some [encode (f l b)] := by
  have htokens := assembleLine_tokens (us := [u]) hm (fieldValue_clean ht) (by simpa using fieldValue_clean hu)
  rw [hline] at htokens
  simpa [lineLinkByte, ht, hu] using htokens

/-! ### The body of a transmit command (`42_transmit.md` R171 to R174) -/

section
variable {s : State} {i : Instr} {body : Result}

/-- A running block answers the state that a command's body ends in. -/
theorem State.command_done {t : State} (hs : s.Running) (h : body = .done t) : s.command i body = .next t.noReply :=
  (State.command_running hs i body).trans (congrArg (s.finish i) h)

/-- A running block takes the fault that a command's body raises. -/
theorem State.command_raise {c : FaultCode} (hs : s.Running) (h : body = .raise c) :
    s.command i body = .next (s.takeFault c (encode i)) :=
  (State.command_running hs i body).trans (congrArg (s.finish i) h)

end

section
variable {s : State} {l : LinkNo} {k k' : Link} {seq : List Byte} {f : Link → Link}

theorem State.emitThen_some (h : k.emit s.params.txRingCap seq = some k') :
    s.emitThen l k seq f = .done (s.setLink l (f k')) := by
  rw [State.emitThen, h]

theorem State.emitThen_none (h : k.emit s.params.txRingCap seq = none) :
    s.emitThen l k seq f = .raise .txRingOverrun := by
  rw [State.emitThen, h]

end

section
variable {s : State} {l : LinkNo} {k' : Link} (hs : s.Running)
include hs

theorem exec_txs_badLink (hl : s.params.nLinks ≤ l.toNat) :
    exec (.txs l) s = .next (s.takeFault .badLink (encode (.txs l))) :=
  State.command_raise hs (State.onLink_bad hl _)

theorem exec_txd_badLink (hl : s.params.nLinks ≤ l.toNat) (b : Byte) :
    exec (.txd l b) s = .next (s.takeFault .badLink (encode (.txd l b))) :=
  State.command_raise hs (State.onLink_bad hl _)

theorem exec_txe_badLink (hl : s.params.nLinks ≤ l.toNat) :
    exec (.txe l) s = .next (s.takeFault .badLink (encode (.txe l))) :=
  State.command_raise hs (State.onLink_bad hl _)

variable (hl : l.toNat < s.params.nLinks)
include hl

theorem exec_txs_busy (hbusy : (s.link l).txo = true ∨ (s.link l).arm = true) :
    exec (.txs l) s = .next (s.takeFault .txBusy (encode (.txs l))) :=
  State.command_raise hs (by rw [txsBody, State.onLink_ok hl, if_pos hbusy])

theorem exec_txd_notOpen (htxo : (s.link l).txo = false) (b : Byte) :
    exec (.txd l b) s = .next (s.takeFault .txNotOpen (encode (.txd l b))) :=
  State.command_raise hs (by rw [txdBody, State.onLink_ok hl, if_pos htxo])

theorem exec_txe_notOpen (htxo : (s.link l).txo = false) :
    exec (.txe l) s = .next (s.takeFault .txNotOpen (encode (.txe l))) :=
  State.command_raise hs (by rw [txeBody, State.onLink_ok hl, if_pos htxo])

variable {k : Link} (hk : s.link l = k)
include hk

theorem exec_txs_opens (htxo : k.txo = false) (harm : k.arm = false)
    (hemit : { k with txm := k.txMode, fcs := fcsSeed }.emit s.params.txRingCap [flagByte] = some k') :
    exec (.txs l) s = .next (s.setLink l { k' with txo := true }).noReply :=
  State.command_done hs (by
    rw [txsBody, State.onLink_ok hl, hk, if_neg (by simp [htxo, harm])]
    exact State.emitThen_some hemit)

variable (htxo : k.txo = true)
include htxo

theorem exec_txd_sends {b : Byte} (hemit : k.emit s.params.txRingCap (stuff b k.accmTx) = some k') :
    exec (.txd l b) s = .next (s.setLink l { k' with fcs := crc k'.fcs b }).noReply :=
  State.command_done hs (by
    rw [txdBody, State.onLink_ok hl, hk, if_neg (by simp [htxo])]
    exact State.emitThen_some hemit)

theorem exec_txd_overrun {b : Byte} (hemit : k.emit s.params.txRingCap (stuff b k.accmTx) = none) :
    exec (.txd l b) s = .next (s.takeFault .txRingOverrun (encode (.txd l b))) :=
  State.command_raise hs (by
    rw [txdBody, State.onLink_ok hl, hk, if_neg (by simp [htxo])]
    exact State.emitThen_none hemit)

theorem exec_txe_closes (hemit : k.emit s.params.txRingCap (frameTail k.fcs k.accmTx) = some k') :
    exec (.txe l) s =
      .next (s.setLink l { k' with txo := false, arm := if k'.txm = true then true else k'.arm }).noReply :=
  State.command_done hs (by
    rw [txeBody, State.onLink_ok hl, hk, if_neg (by simp [htxo])]
    exact State.emitThen_some hemit)

theorem exec_txe_overrun (hemit : k.emit s.params.txRingCap (frameTail k.fcs k.accmTx) = none) :
    exec (.txe l) s = .next (s.takeFault .txRingOverrun (encode (.txe l))) :=
  State.command_raise hs (by
    rw [txeBody, State.onLink_ok hl, hk, if_neg (by simp [htxo])]
    exact State.emitThen_none hemit)

end

/-- Settles O38: the mode and the seed are written before the flag is emitted, and the flag fits because the ring of
an idle link is empty. -/
theorem txsOpensFrame : Obligations.TxsOpensFrame := by
  refine ⟨fun w l => decode_eq_ok_iff, fun t l ht => ?_, fun s l hinv hs => ⟨exec_txs_badLink hs, exec_txs_busy hs,
    fun hl htxo harm hmode => ?polled, fun hl htxo harm hmode => ?buffered⟩⟩
  · exact assembleLine_link (m := "TXS".toList) (by simp [Clean]) (by simp [assembleTokens]) ht
  case polled =>
    refine (exec_txs_opens hs hl rfl htxo harm (Link.emit_polled hmode _ _)).trans ?_
    simp only [hmode]
    rfl
  case buffered =>
    obtain ⟨-, -, hidle, -⟩ := hinv.transmit _ (State.link_mem hinv.shape hl)
    obtain ⟨-, -, -, -, -, hcap, -⟩ := hinv.shape.1
    refine (exec_txs_opens hs hl rfl htxo harm (Link.emit_fits hmode (by simpa [hidle htxo harm] using hcap))).trans ?_
    simp only [hmode, hidle htxo harm]
    rfl

/-- Settles O39: the mode of the open frame and the room in the ring decide what the emit of the stuffed byte does. -/
theorem txdSendsStuffedByte : Obligations.TxdSendsStuffedByte := by
  refine ⟨fun w l b => decode_eq_ok_iff.trans (by rw [encode, packWord_byteArg]; rfl), fun t u l b ht hu => ?_,
    fun s l b hs => ⟨fun hl => exec_txd_badLink hs hl b, fun hl htxo => exec_txd_notOpen hs hl htxo b,
      fun hl htxo hmode => exec_txd_sends hs hl rfl htxo (Link.emit_polled hmode _ _),
      fun hl htxo hmode hfit => exec_txd_sends hs hl rfl htxo (Link.emit_fits hmode hfit),
      fun hl htxo hmode hover => exec_txd_overrun hs hl rfl htxo (Link.emit_overrun hmode hover)⟩⟩
  exact assembleLine_linkByte (m := "TXD".toList) (by simp [Clean]) (by simp [assembleTokens]) ht hu

/-- The tail of a frame as R174 writes it. -/
theorem frameTail_eq (f : Half) (a : Word) :
    frameTail f a = stuff ((f ^^^ 0xFFFF).extractLsb' 0 8) a ++ stuff ((f ^^^ 0xFFFF).extractLsb' 8 8) a ++ [0x7E] := by
  simp [frameTail, fcsBytes, stuffAll_cons, lowByte, highByte, fcsComplement, flagByte]

/-- Settles O40: the same three outcomes of the emit, and a frame closed in buffered mode is armed. -/
theorem txeEndsFrame : Obligations.TxeEndsFrame := by
  refine ⟨fun w l => decode_eq_ok_iff, fun t l ht => ?_, fun s l _ hs => ?_⟩
  · exact assembleLine_link (m := "TXE".toList) (by simp [Clean]) (by simp [assembleTokens]) ht
  intro k v seq
  have hseq : seq = frameTail k.fcs k.accmTx := (frameTail_eq _ _).symm
  rw [hseq]
  refine ⟨exec_txe_badLink hs, exec_txe_notOpen hs, fun hl htxo hmode => ?polled, fun hl htxo hmode hfit => ?buffered,
    fun hl htxo hmode hover => exec_txe_overrun hs hl rfl htxo (Link.emit_overrun hmode hover)⟩
  case polled =>
    refine (exec_txe_closes hs hl rfl htxo (Link.emit_polled hmode _ _)).trans ?_
    simp [k, show (s.link l).txm = false from hmode]
  case buffered =>
    refine (exec_txe_closes hs hl rfl htxo (Link.emit_fits hmode hfit)).trans ?_
    simp [k, show (s.link l).txm = true from hmode]

end Sys2Proof.Machine

namespace Sys2Proof.Machine

/-! ### What a transmit command leaves unchanged (`42_transmit.md` R172 to R174, R181) -/

/-- Settles O24: an armed link is neither open nor quiescent, so no command's write of its transmit state applies. -/
theorem armedRingOnlyDrains : Obligations.ArmedRingOnlyDrains := by
  intro i s t l hs hl harm h
  obtain ⟨u, he, hu⟩ := exec_effect h
  obtain ⟨hboth, -⟩ := hs.transmit _ (State.link_mem hs.shape hl)
  rw [hu.link]
  rcases he.link l with hsame | ⟨f, hw⟩
  · rw [hsame]
    exact ⟨rfl, harm⟩
  · rcases hw.transmit_cases with ⟨⟨-, -, -, harm', hring, -⟩, -⟩ | ht | ⟨-, hquiet, -⟩
    · exact ⟨hring, harm'.trans harm⟩
    · generalize u.link l = k at ht
      cases ht with
      | opened _ k _ hidle => cases harm.symm.trans hidle
      | sent _ b k htxo => exact absurd ⟨htxo, harm⟩ hboth
      | closed _ k htxo => exact absurd ⟨htxo, harm⟩ hboth
    · simp [Link.busy, harm] at hquiet

section
variable {k k' : Link} {cap : Nat} {seq : List Byte} (h : k.emit cap seq = some k')
include h

theorem Link.emit_sameConfig : k.SameConfig k' := by
  rcases Link.emit_cases h with ⟨-, rfl⟩ | ⟨-, -, rfl⟩ <;> exact ⟨rfl, rfl, rfl, rfl, rfl⟩

/-- An emit writes the ring or the wire and no other part of the transmit state. -/
theorem Link.emit_sameState : k'.txo = k.txo ∧ k'.fcs = k.fcs ∧ k'.txm = k.txm ∧ k'.arm = k.arm := by
  rcases Link.emit_cases h with ⟨-, rfl⟩ | ⟨-, -, rfl⟩ <;> exact ⟨rfl, rfl, rfl, rfl⟩

end

section
variable {s u : State} {l m : LinkNo} {i : Instr} {b : Byte} {k : Link} {f : State → State}

theorem TransmitWrite.sameConfig {i : Option Instr} (h : TransmitWrite s i l k f) : (s.link l).SameConfig k := by
  cases h with
  | opened l k _ _ hemit => exact (Link.emit_sameConfig hemit :)
  | sent l b k _ hemit => exact (Link.emit_sameConfig hemit :)
  | closed l k _ hemit => exact (Link.emit_sameConfig hemit :)
  | drainedMore | drainedLast => exact ⟨rfl, rfl, rfl, rfl, rfl⟩

theorem TransmitWrite.txs_arm (h : TransmitWrite s (some (.txs l)) m k f) : k.arm = (s.link m).arm := by
  cases h with
  | opened _ k _ _ hemit =>
    obtain ⟨-, -, -, harm⟩ := Link.emit_sameState hemit
    exact harm

theorem TransmitWrite.txd_sameState (h : TransmitWrite s (some (.txd l b)) m k f) :
    k.txo = (s.link m).txo ∧ k.txm = (s.link m).txm ∧ k.arm = (s.link m).arm := by
  cases h with
  | sent _ _ k _ hemit =>
    obtain ⟨htxo, -, htxm, harm⟩ := Link.emit_sameState hemit
    exact ⟨htxo, htxm, harm⟩

theorem TransmitWrite.txe_sameState (h : TransmitWrite s (some (.txe l)) m k f) :
    k.fcs = (s.link m).fcs ∧ k.txm = (s.link m).txm := by
  cases h with
  | closed _ k _ hemit =>
    obtain ⟨-, hfcs, htxm, -⟩ := Link.emit_sameState hemit
    exact ⟨hfcs, htxm⟩

variable (hi : i = .txs l ∨ i = .txe l ∨ ∃ b, i = .txd l b)
include hi

/-- A transmit command writes no link but its own, and there its transmit state. -/
theorem LinkWrite.transmit_of_command (h : LinkWrite s (some i) m k f) :
    m = l ∧ f = id ∧ TransmitWrite s (some i) m k f := by
  rcases hi with rfl | rfl | ⟨b, rfl⟩
  all_goals
    cases h with
    | receive h => cases h
    | transmit h => exact ⟨by cases h; rfl, by cases h; rfl, h⟩

theorem Effect.transmit_sameOtherLinks (he : Effect s (some i) u) : s.SameOtherLinks l u := fun m hm =>
  (he.link m).resolve_right fun ⟨_, hw⟩ => hm (hw.transmit_of_command hi).1

/-- What holds of a transmit command's link before it and after each write of it holds after the command. -/
theorem Effect.transmit_link (he : Effect s (some i) u) {P : Link → Prop} (hsame : P (s.link l))
    (hwrite : ∀ {k : Link}, TransmitWrite s (some i) l k id → P k) : P (u.link l) := by
  rcases he.link l with hl | ⟨f, hw⟩
  · exact hl.symm ▸ hsame
  · obtain ⟨-, rfl, ht⟩ := hw.transmit_of_command hi
    exact hwrite ht

/-- Outside the links a transmit command writes the latch only. -/
theorem Effect.transmit_frame (he : Effect s (some i) u) :
    s.SameRxQueue u ∧ s.SameTxQueue u ∧ s.SameVerdicts u ∧ s.SameModel u := by
  cases he with
  | nothing => exact ⟨⟨rfl, rfl⟩, ⟨rfl, rfl⟩, ⟨rfl, rfl⟩, rfl, rfl, rfl, rfl⟩
  | latched => exact ⟨⟨rfl, rfl⟩, ⟨rfl, rfl⟩, ⟨rfl, rfl⟩, rfl, rfl, rfl, rfl⟩
  | write hw =>
    obtain ⟨-, rfl, -⟩ := hw.transmit_of_command hi
    exact ⟨⟨rfl, rfl⟩, ⟨rfl, rfl⟩, ⟨rfl, rfl⟩, rfl, rfl, rfl, rfl⟩
  | badFcs | badSize | reclaimed => simp at hi

end

/-- Settles O43: the one write among a transmit command's effects is that of its link's transmit state, and it keeps
the receive state, the slots with it, and the registers. -/
theorem transmitFrame : Obligations.TransmitFrame := by
  intro s t l i hi h
  obtain ⟨u, r, he, rfl⟩ := exec_effect_response h
  have hother := he.transmit_sameOtherLinks hi
  obtain ⟨hrx, htx, hverdicts, hmodel⟩ := he.transmit_frame hi
  have hreceive : (s.link l).SameReceive (u.link l) :=
    he.transmit_link hi ⟨rfl, rfl, rfl, rfl⟩ TransmitWrite.sameReceive
  have hconfig : (s.link l).SameConfig (u.link l) :=
    he.transmit_link hi ⟨rfl, rfl, rfl, rfl, rfl⟩ TransmitWrite.sameConfig
  refine ⟨hother, hreceive, hconfig, hrx, htx, hverdicts, hmodel, ?txd, ?txe, ?txs, fun m j n => ?byte⟩
  case txd =>
    rintro b rfl
    exact he.transmit_link hi (P := fun k => k.txo = _ ∧ k.txm = _ ∧ k.arm = _) ⟨rfl, rfl, rfl⟩
      TransmitWrite.txd_sameState
  case txe =>
    rintro rfl
    exact he.transmit_link hi (P := fun k => k.fcs = _ ∧ k.txm = _) ⟨rfl, rfl⟩ TransmitWrite.txe_sameState
  case txs =>
    rintro rfl
    exact he.transmit_link hi (P := fun k => k.arm = _) rfl TransmitWrite.txs_arm
  case byte =>
    by_cases hm : m = l
    · obtain ⟨-, -, -, hslots⟩ := hreceive
      exact hm ▸ congrArg (fun v : Slot => v.data.read n) (Link.slot_congr hslots j)
    · exact congrArg (fun k : Link => (k.slot j).data.read n) (hother m hm)

/-! ### The DRAIN step (`42_transmit.md` R180) -/

theorem step_drain {s : State} {l : LinkNo} {rest : List Event} (h : s.pending = .drain l :: rest) :
    step s = .next ((s.setPending rest).drainEvent l) := by
  rw [step, h]

theorem step_idle {s : State} (h : s.pending = []) : step s = .next s.idle := by
  rw [step, h]

theorem State.drainEvent_enabled {s : State} {l : LinkNo} (h : s.drainEnabled l = true) :
    s.drainEvent l = (s.drain l).noReply := by
  rw [State.drainEvent, if_pos h]

theorem State.drainEvent_disabled {s : State} {l : LinkNo} (h : s.drainEnabled l = false) :
    s.drainEvent l = s.noReply := by
  rw [State.drainEvent, h]
  rfl

theorem State.drain_last_room {s : State} {l : LinkNo} {c : Byte} (hring : (s.link l).ring = [c])
    (hroom : s.txq.length < s.params.txqCap) :
    s.drain l =
      (s.setLink l { s.link l with ring := [], wire := (s.link l).wire ++ [c], arm := false }).pushTxq l :=
  (State.drain_last hring).trans (State.completeDrain_room (s := s.setLink l _) hroom l)

theorem State.drain_last_full {s : State} {l : LinkNo} {c : Byte} (hring : (s.link l).ring = [c])
    (hfull : s.params.txqCap ≤ s.txq.length) :
    s.drain l =
      (s.setLink l { s.link l with ring := [], wire := (s.link l).wire ++ [c], arm := false }).bumpTxqDrop :=
  (State.drain_last hring).trans (State.completeDrain_full (s := s.setLink l _) hfull l)

/-- A DRAIN step writes none of the fields that no command writes. -/
theorem State.drain_sameModel (s : State) (l : LinkNo) : s.SameModel (s.drain l) := by
  unfold State.drain State.completeDrain
  split
  · exact ⟨rfl, rfl, rfl, rfl⟩
  · split_ifs <;> exact ⟨rfl, rfl, rfl, rfl⟩

/-- Settles O41: an enabled DRAIN moves the ring's head, and the room in the queue decides how the last one ends. -/
theorem drainMovesOneByte : Obligations.DrainMovesOneByte := by
  intro s l rest hp hl
  have hen (harm : (s.link l).arm = true) (hrun : s.faultValid = false) (hring : (s.link l).ring ≠ []) :
      step s = .next ((s.setPending rest).drain l).noReply :=
    (step_drain hp).trans (congrArg _ (State.drainEvent_enabled
      ((State.drainEnabled_iff (s.setPending rest) l).mpr ⟨hl, harm, hring, hrun⟩)))
  refine ⟨fun hno => ?disabled, fun c d r harm hrun hring => ?more, fun c harm hrun hring hroom => ?room,
    fun c harm hrun hring hfull => ?full⟩
  case disabled =>
    have hoff : (s.setPending rest).drainEnabled l = false := by
      refine Bool.eq_false_iff.mpr fun hon => hno ?_
      obtain ⟨-, harm, hring, hrun⟩ := (State.drainEnabled_iff (s.setPending rest) l).mp hon
      exact ⟨harm, List.length_pos_iff.mpr hring, hrun⟩
    exact (step_drain hp).trans (congrArg _ (State.drainEvent_disabled hoff))
  case more =>
    rw [hen harm hrun (by simp [hring]), State.drain_more (s := s.setPending rest) hring]
    rfl
  case room =>
    rw [hen harm hrun (by simp [hring]), State.drain_last_room (s := s.setPending rest) hring hroom]
    rfl
  case full =>
    rw [hen harm hrun (by simp [hring]), State.drain_last_full (s := s.setPending rest) hring hfull]
    rfl

/-- Settles O42, by the enabled engines: none, or one of them chosen. -/
theorem idleStepTakesSomeDrain : Obligations.IdleStepTakesSomeDrain := by
  intro s hp
  rw [step_idle hp]
  rcases s.idle_cases with ⟨hnone, hidle⟩ | ⟨l, -, hen, hidle⟩
  · refine ⟨fun _ => congrArg _ hidle, fun ⟨l, hen⟩ => ?_⟩
    have hmem := State.mem_drainable.mpr hen
    simp [hnone] at hmem
  · refine ⟨fun hoff => absurd hen (by simp [hoff l]), fun _ => ⟨l, hen, ?_⟩⟩
    obtain ⟨-, -, -, hdraws⟩ := s.drain_sameModel l
    rw [hidle, ← hdraws]
    rfl

end Sys2Proof.Machine

namespace Sys2Proof.Machine

/-! ### A whole frame (`42_transmit.md` R182) -/

section
variable {k k' : Link} {cap : Nat}

/-- What is emitted in one piece can be emitted in two. -/
theorem Link.emit_append {seq rest : List Byte} (h : k.emit cap (seq ++ rest) = some k') :
    ∃ k₁, k.emit cap seq = some k₁ ∧ k₁.emit cap rest = some k' := by
  rcases Link.emit_cases h with ⟨htxm, rfl⟩ | ⟨htxm, hfit, rfl⟩
  · refine ⟨_, Link.emit_polled htxm cap seq, ?_⟩
    rw [Link.emit_polled (k := { k with wire := k.wire ++ seq }) htxm, List.append_assoc]
  · rw [List.length_append, ← Nat.add_assoc] at hfit
    refine ⟨_, Link.emit_fits htxm (Nat.le_of_add_right_le hfit), ?_⟩
    rw [Link.emit_fits (k := { k with ring := k.ring ++ seq }) htxm (by rwa [List.length_append]), List.append_assoc]

theorem Link.emit_nil (h : k.emit cap [] = some k') : k' = k := by
  rcases Link.emit_cases h with ⟨-, rfl⟩ | ⟨-, -, rfl⟩ <;> simp

variable {seq : List Byte} (h : k.emit cap seq = some k')
include h

theorem Link.emit_setFcs (v : Half) : { k with fcs := v }.emit cap seq = some { k' with fcs := v } := by
  rcases Link.emit_cases h with ⟨htxm, rfl⟩ | ⟨htxm, hfit, rfl⟩
  · exact Link.emit_polled (k := { k with fcs := v }) htxm cap seq
  · exact Link.emit_fits (k := { k with fcs := v }) htxm hfit

theorem Link.emit_setTxo (o : Bool) : { k with txo := o }.emit cap seq = some { k' with txo := o } := by
  rcases Link.emit_cases h with ⟨htxm, rfl⟩ | ⟨htxm, hfit, rfl⟩
  · exact Link.emit_polled (k := { k with txo := o }) htxm cap seq
  · exact Link.emit_fits (k := { k with txo := o }) htxm hfit

end

section
variable {s : State} {l : LinkNo} {k' : Link} (hs : s.Running) (hl : l.toNat < s.params.nLinks)
  (hlisted : l.toNat < s.links.length)
include hs hl hlisted

/-- TXDs on an open link emit the stuffed payload and run the FCS over it, in either mode. -/
theorem execAll_txd (p : List Byte) {k : Link} (htxo : k.txo = true)
    (hemit : k.emit s.params.txRingCap (stuffAll p k.accmTx) = some k') :
    execAll (p.map fun b => .txd l b) (s.setLink l k).noReply =
      .next (s.setLink l { k' with fcs := fcsOver k.fcs p }).noReply := by
  induction p generalizing k k' with
  | nil => rw [Link.emit_nil hemit]; rfl
  | cons b p ih =>
    obtain ⟨k₁, hbyte, hrest⟩ := Link.emit_append (stuffAll_cons b p k.accmTx ▸ hemit)
    obtain ⟨htxo₁, hfcs₁, -⟩ := Link.emit_sameState hbyte
    obtain ⟨-, haccm₁, -⟩ := Link.emit_sameConfig hbyte
    have hk : (s.setLink l k).noReply.link l = k := State.link_setLink_same k hlisted
    have hsent := exec_txd_sends (s := (s.setLink l k).noReply) hs hl hk htxo hbyte
    rw [State.setLink_noReply_setLink, hfcs₁] at hsent
    rw [← haccm₁] at hrest
    have hrun := ih (k := { k₁ with fcs := crc k.fcs b }) (htxo₁.trans htxo) (Link.emit_setFcs hrest (crc k.fcs b))
    exact (execAll_cons _ hsent).trans hrun

/-- R182: TXFRAME on an idle link emits the encoded frame, in either mode, and arms the link in buffered mode. -/
theorem execAll_expandTxframe {p : List Byte} (htxo : (s.link l).txo = false) (harm : (s.link l).arm = false)
    (hemit : { s.link l with txm := (s.link l).txMode, fcs := fcsSeed }.emit s.params.txRingCap
      (encodeFrame p (s.link l).accmTx) = some k') :
    execAll (expandTxframe l p) s =
      .next (s.setLink l
        { k' with txo := false, fcs := fcsOver fcsSeed p, arm := (s.link l).txMode }).noReply := by
  obtain ⟨k₂, hbody, htail⟩ := Link.emit_append hemit
  obtain ⟨k₁, hflag, hpayload⟩ := Link.emit_append hbody
  obtain ⟨-, hfcs₁, -⟩ : _ ∧ k₁.fcs = fcsSeed ∧ _ := Link.emit_sameState hflag
  obtain ⟨-, haccm₁, -⟩ := Link.emit_sameConfig hflag
  obtain ⟨-, haccm₂, -⟩ := Link.emit_sameConfig hbody
  obtain ⟨-, -, htxm, harm'⟩ := Link.emit_sameState hemit
  rw [← haccm₁] at hpayload
  rw [← haccm₂, ← hfcs₁] at htail
  rw [← hfcs₁]
  have hopen := exec_txs_opens hs hl rfl htxo harm hflag
  have hsent := execAll_txd hs hl hlisted p (k := { k₁ with txo := true }) rfl (Link.emit_setTxo hpayload true)
  have hk : (s.setLink l { k₂ with txo := true, fcs := fcsOver k₁.fcs p }).noReply.link l = _ :=
    State.link_setLink_same _ hlisted
  have hclose := exec_txe_closes (s := (s.setLink l { k₂ with txo := true, fcs := fcsOver k₁.fcs p }).noReply) hs hl
    hk rfl (Link.emit_setFcs (Link.emit_setTxo htail true) (fcsOver k₁.fcs p))
  rw [State.setLink_noReply_setLink] at hclose
  rw [expandTxframe, execAll_cons _ hopen, execAll_append _ hsent]
  refine (execAll_cons [] hclose).trans ?_
  simp only [htxm, harm', harm]
  cases (s.link l).txMode <;> rfl

end

/-- Settles O44: nothing that is emitted in polled mode goes anywhere but to the wire. -/
theorem polledFrameAppearsOnWire : Obligations.PolledFrameAppearsOnWire := by
  intro s l p hinv hs hl htxo harm hmode
  have hframe := execAll_expandTxframe hs hl (State.lt_links_length hinv.shape hl) htxo harm
    (Link.emit_polled hmode _ (encodeFrame p (s.link l).accmTx))
  rw [hframe]
  simp only [hmode, htxo, harm]
  rfl

theorem State.completeDrain_noReply (s : State) (l : LinkNo) :
    (s.noReply.completeDrain l).noReply = (s.completeDrain l).noReply := by
  rw [State.completeDrain, State.completeDrain, State.noReply_txq, State.noReply_params]
  split <;> rfl

theorem State.link_congr {s t : State} (hlinks : t.links = s.links) (hparams : t.params = s.params) (m : LinkNo) :
    t.link m = s.link m := by
  rw [State.link, State.link, hlinks, hparams]

theorem State.completeDrain_link (s : State) (l m : LinkNo) : (s.completeDrain l).link m = s.link m := by
  obtain ⟨hparams, hlinks, -⟩ := s.completeDrain_frame l
  exact State.link_congr hlinks hparams m

/-- As many DRAIN steps as an armed link has bytes to send put them on the wire, disarm the link and report it. -/
theorem State.drainTimes_setLink {s : State} {l : LinkNo} (hs : s.Running) (hl : l.toNat < s.params.nLinks)
    (hlisted : l.toNat < s.links.length) {seq : List Byte} {k : Link} (hne : seq ≠ []) (hring : k.ring = seq)
    (harm : k.arm = true) :
    (s.setLink l k).noReply.drainTimes l seq.length =
      ((s.setLink l { k with ring := [], wire := k.wire ++ seq, arm := false }).completeDrain l).noReply := by
  induction seq generalizing k with
  | nil => exact absurd rfl hne
  | cons c rest ih =>
    have hk : (s.setLink l k).noReply.link l = k := State.link_setLink_same k hlisted
    have hring' : ((s.setLink l k).noReply.link l).ring = c :: rest := (congrArg Link.ring hk).trans hring
    have hen : (s.setLink l k).noReply.drainEnabled l = true :=
      (State.drainEnabled_iff _ l).mpr ⟨hl, (congrArg Link.arm hk).trans harm, hring' ▸ hne, hs⟩
    rw [List.length_cons, State.drainTimes, State.drainEvent_enabled hen]
    cases rest with
    | nil =>
      rw [State.drain_last hring', hk]
      refine (State.completeDrain_noReply ((s.setLink l k).setLink l _) l).trans ?_
      rw [State.setLink_setLink]
    | cons d r =>
      have hrest := ih (k := { k with ring := d :: r, wire := k.wire ++ [c] }) (List.cons_ne_nil d r) rfl harm
      rw [State.drain_more hring', hk, State.setLink_noReply_setLink]
      refine hrest.trans ?_
      simp only [List.append_assoc, List.singleton_append]

/-- Settles O45: nothing that is emitted in buffered mode goes anywhere but to the ring, which starts empty, and the
DRAIN steps take it from there to the wire. -/
theorem bufferedFrameAppearsOnWire : Obligations.BufferedFrameAppearsOnWire := by
  intro s l p hinv hs hl htxo harm hmode hfit frame
  obtain ⟨-, -, hidle, -⟩ := hinv.transmit _ (State.link_mem hinv.shape hl)
  have hring : (s.link l).ring = [] := hidle htxo harm
  have hlisted := State.lt_links_length hinv.shape hl
  have hframe : execAll (expandTxframe l p) s = .next (s.setLink l
      { s.link l with txm := true, fcs := fcsOver fcsSeed p, arm := true, ring := frame }).noReply := by
    refine (execAll_expandTxframe hs hl hlisted htxo harm
      (Link.emit_fits hmode (seq := frame) (by simpa [hring] using hfit))).trans ?_
    simp only [hmode, htxo, hring, List.nil_append]
  have hdrain := State.drainTimes_setLink hs hl hlisted (seq := frame)
    (k := { s.link l with txm := true, fcs := fcsOver fcsSeed p, arm := true, ring := frame })
    (by simp [frame, encodeFrame]) rfl rfl
  refine ⟨_, hframe, State.link_setLink_same _ hlisted, ?_, fun hroom => ?_, fun hfull => ?_⟩
  · rw [hdrain, State.noReply_link, State.completeDrain_link]
    exact State.link_setLink_same _ hlisted
  · rw [hdrain, State.completeDrain_room (s := s.setLink l _) hroom]
    exact ⟨rfl, rfl⟩
  · rw [hdrain, State.completeDrain_full (s := s.setLink l _) hfull.ge]
    exact ⟨rfl, rfl⟩

end Sys2Proof.Machine

namespace Sys2Proof.Machine

/-! ### The drain engines with nothing pending (`42_transmit.md` R181) -/

/-- The bytes a link's drain engine still has to send. -/
def Link.owed (k : Link) : List Byte := if k.arm = true then k.ring else []

theorem Link.owed_armed {k : Link} (h : k.arm = true) : k.owed = k.ring := if_pos h

theorem Link.owed_idle {k : Link} (h : k.arm = false) : k.owed = [] := if_neg (by simp [h])

/-- An armed link has bytes to send (R33). -/
theorem Link.TransmitOk.arm_of_owed {k : Link} (h : k.TransmitOk) (hnil : k.owed = []) : k.arm = false := by
  refine Bool.eq_false_iff.mpr fun harm => ?_
  obtain ⟨-, harmed, -⟩ := h
  obtain ⟨-, hring⟩ := harmed harm
  exact hring (Link.owed_armed harm ▸ hnil)

theorem State.bytesToDrain_eq (s : State) : s.bytesToDrain = (s.links.map fun k => k.owed.length).sum := by
  simp only [State.bytesToDrain, Link.owed, apply_ite List.length, List.length_nil]

theorem State.bytesToDrain_eq_zero_iff (s : State) : s.bytesToDrain = 0 ↔ ∀ k ∈ s.links, k.owed = [] := by
  rw [State.bytesToDrain_eq, List.sum_eq_zero_iff]
  simp

/-- A link's share of the bytes to drain. -/
theorem State.bytesToDrain_setLink {s : State} {l : LinkNo} (hlisted : l.toNat < s.links.length) (k : Link) :
    (s.setLink l k).bytesToDrain + (s.link l).owed.length = s.bytesToDrain + k.owed.length := by
  have hsum (k : Link) := List.sum_set (s.links.map fun k => k.owed.length) l.toNat k.owed.length
  have hsame : s.bytesToDrain = (s.setLink l (s.link l)).bytesToDrain := by rw [State.setLink_getLink hlisted]
  rw [hsame, State.bytesToDrain_eq, State.bytesToDrain_eq, State.setLink_links, State.setLink_links, List.map_set,
    List.map_set, hsum, hsum]
  simp only [List.length_map, hlisted, if_true]
  omega

theorem State.exists_link_eq {s : State} (hs : s.Shape) {k : Link} (hk : k ∈ s.links) :
    ∃ l : LinkNo, l.toNat < s.params.nLinks ∧ s.link l = k := by
  obtain ⟨i, hi, rfl⟩ := List.getElem_of_mem hk
  obtain ⟨⟨⟨-, hmax⟩, -⟩, hlen, -⟩ := hs
  have htoNat : (BitVec.ofNat 8 i).toNat = i := by simp; omega
  exact ⟨BitVec.ofNat 8 i, by omega, by rw [State.link, htoNat, List.getD_eq_getElem _ _ hi]⟩

/-- An enabled DRAIN makes one of the drain engine's writes. -/
theorem State.drain_write {s : State} {l : LinkNo} (hen : s.drainEnabled l = true) :
    ∃ k f, TransmitWrite s none l k f ∧ s.drain l = f (s.setLink l k) := by
  obtain ⟨-, -, hring, -⟩ := (State.drainEnabled_iff s l).mp hen
  match hr : (s.link l).ring with
  | [] => exact absurd hr hring
  | [c] => exact ⟨_, _, .drainedLast l c hen hr, State.drain_last hr⟩
  | c :: d :: r => exact ⟨_, _, .drainedMore l c d r hen hr, State.drain_more hr⟩

/-- A DRAIN moves one byte from what is owed to the wire. -/
theorem TransmitWrite.drain_owed {s : State} {l : LinkNo} {k : Link} {f : State → State}
    (h : TransmitWrite s none l k f) :
    k.owed.length + 1 = (s.link l).owed.length ∧ k.wire ++ k.owed = (s.link l).wire ++ (s.link l).owed := by
  cases h with
  | drainedMore l c d r hen hring =>
    obtain ⟨-, harm, -⟩ := (State.drainEnabled_iff s l).mp hen
    have howed := Link.owed_armed (k := { s.link l with ring := d :: r, wire := (s.link l).wire ++ [c] }) harm
    rw [Link.owed_armed harm, hring, howed]
    exact ⟨rfl, List.append_assoc _ _ _⟩
  | drainedLast l c hen hring =>
    obtain ⟨-, harm, -⟩ := (State.drainEnabled_iff s l).mp hen
    have howed := Link.owed_idle (k := { s.link l with ring := [], wire := (s.link l).wire ++ [c], arm := false }) rfl
    rw [Link.owed_armed harm, hring, howed]
    exact ⟨rfl, List.append_nil _⟩

/-- An enabled DRAIN leaves one byte less to drain, and what each link has sent and owes is the same as before. -/
theorem State.drain_moves {s : State} {l : LinkNo} (hlisted : l.toNat < s.links.length)
    (hen : s.drainEnabled l = true) :
    (s.drain l).faultValid = s.faultValid ∧ (s.drain l).bytesToDrain + 1 = s.bytesToDrain ∧
      ∀ m, ((s.drain l).link m).wire ++ ((s.drain l).link m).owed = (s.link m).wire ++ (s.link m).owed := by
  obtain ⟨k, f, hw, hdrain⟩ := State.drain_write hen
  obtain ⟨hparams, hlinks, hfault, -⟩ := (LinkWrite.transmit hw).frame (s.setLink l k)
  obtain ⟨hlen, hwire⟩ := hw.drain_owed
  rw [hdrain]
  refine ⟨hfault, ?count, fun m => ?wire⟩
  case count =>
    have htotal := State.bytesToDrain_setLink hlisted k
    rw [State.bytesToDrain_eq, hlinks, ← State.bytesToDrain_eq]
    omega
  case wire =>
    rw [State.link_congr hlinks hparams]
    by_cases hm : m = l
    · rw [hm, State.link_setLink_same k hlisted, hwire]
    · rw [State.link_setLink_other s k hm]

/-- In a running block no DRAIN is enabled only when nothing is left to drain. -/
theorem State.bytesToDrain_of_drainable {s : State} (hinv : s.Inv) (hs : s.Running) (hnone : s.drainable = []) :
    s.bytesToDrain = 0 := by
  refine (State.bytesToDrain_eq_zero_iff s).mpr fun k hk => ?_
  obtain ⟨l, hl, rfl⟩ := State.exists_link_eq hinv.shape hk
  refine Link.owed_idle (Bool.eq_false_iff.mpr fun harm => ?_)
  obtain ⟨-, harmed, -⟩ := hinv.transmit _ hk
  obtain ⟨-, hring⟩ := harmed harm
  have hmem := State.mem_drainable.mpr ((State.drainEnabled_iff s l).mpr ⟨hl, harm, hring, hs⟩)
  rw [hnone] at hmem
  cases hmem

/-- A running block with nothing pending and bytes to drain sends one of them. -/
theorem step_drains {s : State} (hinv : s.Inv) (hs : s.Running) (hp : s.pending = []) (hn : s.bytesToDrain ≠ 0) :
    ∃ t, step s = .next t ∧ t.Inv ∧ t.Running ∧ t.pending = [] ∧ t.params = s.params ∧
      t.bytesToDrain + 1 = s.bytesToDrain ∧
      ∀ m, (t.link m).wire ++ (t.link m).owed = (s.link m).wire ++ (s.link m).owed := by
  rcases s.idle_cases with ⟨hnone, -⟩ | ⟨l, -, hen, hidle⟩
  · exact absurd (State.bytesToDrain_of_drainable hinv hs hnone) hn
  · have hstep : step s = .next (s.drain l).drew.noReply := (step_idle hp).trans (congrArg _ hidle)
    obtain ⟨hl, -⟩ := (State.drainEnabled_iff s l).mp hen
    obtain ⟨hfault, hmoves⟩ := State.drain_moves (State.lt_links_length hinv.shape hl) hen
    obtain ⟨hparams, hpending, -⟩ := s.drain_sameModel l
    obtain ⟨hinv', -⟩ := stepKeepsInv s _ hinv hstep
    exact ⟨_, hstep, hinv', hfault.trans hs, hpending.trans hp, hparams, hmoves⟩

/-- A step, then the rest of a run. -/
theorem run_succ_of_step {M : Host.Core} {s t : M.State} (n : Nat) (h : M.step s = .next t) :
    M.run (n + 1) s = M.run n t := by
  rw [Host.Core.run, h]

/-- With nothing pending the block drains until no link is armed, and every owed byte is on its wire. -/
theorem run_drains (n : Nat) {s : State} (hinv : s.Inv) (hs : s.Running) (hp : s.pending = [])
    (hn : s.bytesToDrain = n) :
    ∃ t : State, Sys2Proof.core.run n s = .next t ∧ ∀ l : LinkNo, l.toNat < s.params.nLinks →
      (t.link l).arm = false ∧ (t.link l).wire = (s.link l).wire ++ (s.link l).owed := by
  induction n generalizing s with
  | zero =>
    refine ⟨s, rfl, fun l hl => ?_⟩
    have hk := State.link_mem hinv.shape hl
    have hnil := (State.bytesToDrain_eq_zero_iff s).mp hn _ hk
    exact ⟨(hinv.transmit _ hk).arm_of_owed hnil, by rw [hnil, List.append_nil]⟩
  | succ n ih =>
    obtain ⟨t, hstep, hinv', hs', hp', hparams, hcount, hwire⟩ := step_drains hinv hs hp (by omega)
    obtain ⟨u, hrun, hu⟩ := ih hinv' hs' hp' (by omega)
    refine ⟨u, (run_succ_of_step (M := Sys2Proof.core) n hstep).trans hrun, fun l hl => ?_⟩
    obtain ⟨harm, hl'⟩ := hu l (hparams ▸ hl)
    exact ⟨harm, hl'.trans (hwire l)⟩

/-- Settles O26, by induction on the bytes to drain: each step moves one, and with none left no link is armed. -/
theorem armedFramesReachTheWire : Obligations.ArmedFramesReachTheWire := fun s hinv hs hp =>
  run_drains s.bytesToDrain hinv hs hp rfl

end Sys2Proof.Machine

namespace Sys2Proof.Machine

/-! ### The two sides of a link do not see each other (`42_transmit.md` R183) -/

/-- `L[l] <- g(L[l])`. -/
def State.mapLink (g : Link → Link) (l : LinkNo) (s : State) : State := s.setLink l (g (s.link l))

/-- A change of the state that a command's body answers. -/
def Result.mapState (f : State → State) : Result → Result
  | .done t => .done (f t)
  | .reply t v => .reply (f t) v
  | .raise c => .raise c
  | .stop r => .stop r

/-- A check that does not see the change leaves it to the rest of the body. -/
theorem Result.mapState_check {f : State → State} {P : Prop} [Decidable P] {body body' : Result} (c : FaultCode)
    (h : body' = body.mapState f) : (if P then .raise c else body') = (if P then .raise c else body).mapState f := by
  rw [h]
  split <;> rfl

/-- A command takes a change of a link to the end if its body does. -/
theorem State.command_mapLink {s : State} {g : Link → Link} {l : LinkNo} {i : Instr} {body body' : Result}
    (h : body' = body.mapState (State.mapLink g l)) :
    (s.mapLink g l).command i body' = mapNext (State.mapLink g l) (s.command i body) := by
  subst h
  rcases Bool.eq_false_or_eq_true s.faultValid with hv | hv
  · rw [State.command_halted hv, State.command_halted (s := s.mapLink g l) hv]
    rfl
  · rw [State.command_running hv, State.command_running (s := s.mapLink g l) hv]
    cases body <;> rfl

theorem exec_links_length {i : Instr} {s t : State} (h : exec i s = .next t) : t.links.length = s.links.length := by
  obtain ⟨u, r, he, rfl⟩ := exec_effect_response h
  exact he.links_length

/-- A link that is not in the list cannot be changed. -/
theorem State.mapLink_unlisted {s : State} {l : LinkNo} (h : s.links.length ≤ l.toNat) (g : Link → Link) :
    s.mapLink g l = s := by
  rw [State.mapLink, State.setLink, List.set_eq_of_length_le h]

theorem mapNext_mapLink_unlisted {s : State} {l : LinkNo} (h : s.links.length ≤ l.toNat) (g : Link → Link)
    (i : Instr) : mapNext (State.mapLink g l) (exec i s) = exec i s := by
  cases hx : exec i s with
  | next t => exact congrArg _ (State.mapLink_unlisted (exec_links_length hx ▸ h) g)
  | fault r => rfl
  | refused r => rfl

section
variable {s : State} {l : LinkNo} {g : Link → Link} (hlisted : l.toNat < s.links.length)
include hlisted

theorem State.link_mapLink : (s.mapLink g l).link l = g (s.link l) := State.link_setLink_same _ hlisted

theorem State.mapLink_setLink (k : Link) : (s.setLink l k).mapLink g l = s.setLink l (g k) := by
  rw [State.mapLink, State.link_setLink_same k hlisted, State.setLink_setLink]

theorem State.setLink_mapLink (k : Link) : (s.mapLink g l).setLink l (g k) = (s.setLink l k).mapLink g l := by
  rw [State.mapLink_setLink hlisted, State.mapLink, State.setLink_setLink]

theorem State.onLink_mapLink {body body' : Link → Result}
    (h : body' (g (s.link l)) = (body (s.link l)).mapState (State.mapLink g l)) :
    (s.mapLink g l).onLink l body' = (s.onLink l body).mapState (State.mapLink g l) := by
  by_cases hl : l.toNat < s.params.nLinks
  · rw [State.onLink_ok hl, State.onLink_ok (s := s.mapLink g l) hl, State.link_mapLink hlisted, h]
  · rw [State.onLink_bad (Nat.not_lt.mp hl), State.onLink_bad (s := s.mapLink g l) (Nat.not_lt.mp hl)]
    rfl

theorem State.emitThen_mapLink {k : Link} {seq : List Byte} {f : Link → Link}
    (hemit : (g k).emit s.params.txRingCap seq = (k.emit s.params.txRingCap seq).map g)
    (hf : ∀ k, f (g k) = g (f k)) :
    (s.mapLink g l).emitThen l (g k) seq f = (s.emitThen l k seq f).mapState (State.mapLink g l) := by
  cases h : k.emit s.params.txRingCap seq with
  | none =>
    rw [h] at hemit
    rw [State.emitThen_none h, State.emitThen_none (s := s.mapLink g l) hemit]
    rfl
  | some k' =>
    rw [h] at hemit
    rw [State.emitThen_some h, State.emitThen_some (s := s.mapLink g l) hemit, hf, State.setLink_mapLink hlisted]
    rfl

end

section
variable (k r : Link)

theorem Link.emit_withReceiveOf (cap : Nat) (seq : List Byte) :
    (k.withReceiveOf r).emit cap seq = (k.emit cap seq).map (Link.withReceiveOf · r) := by
  rw [Link.emit, Link.emit, apply_ite (Option.map _), apply_ite (Option.map _)]
  rfl

theorem Link.accept_withTransmitOf (cap : Nat) (d : Byte) :
    (k.withTransmitOf r).accept cap d = (k.accept cap d).withTransmitOf r := by
  rw [Link.accept, Link.accept, apply_ite (Link.withTransmitOf · r)]
  rfl

end

section
variable {s : State} {l : LinkNo} (r : Link) (hlisted : l.toNat < s.links.length)
include hlisted

theorem State.emitThen_withReceiveOf {k : Link} {seq : List Byte} {f : Link → Link}
    (hf : ∀ k, f (k.withReceiveOf r) = (f k).withReceiveOf r) :
    (s.mapLink (Link.withReceiveOf · r) l).emitThen l (k.withReceiveOf r) seq f =
      (s.emitThen l k seq f).mapState (State.mapLink (Link.withReceiveOf · r) l) :=
  State.emitThen_mapLink (g := (Link.withReceiveOf · r)) hlisted (Link.emit_withReceiveOf k r _ seq) hf

theorem txsBody_withReceiveOf :
    txsBody l (s.mapLink (Link.withReceiveOf · r) l) =
      (txsBody l s).mapState (State.mapLink (Link.withReceiveOf · r) l) :=
  State.onLink_mapLink hlisted (Result.mapState_check _ (State.emitThen_withReceiveOf r hlisted
    (k := { s.link l with txm := (s.link l).txMode, fcs := fcsSeed }) fun _ => rfl))

theorem txdBody_withReceiveOf (b : Byte) :
    txdBody l b (s.mapLink (Link.withReceiveOf · r) l) =
      (txdBody l b s).mapState (State.mapLink (Link.withReceiveOf · r) l) :=
  State.onLink_mapLink hlisted (Result.mapState_check _ (State.emitThen_withReceiveOf r hlisted fun _ => rfl))

theorem txeBody_withReceiveOf :
    txeBody l (s.mapLink (Link.withReceiveOf · r) l) =
      (txeBody l s).mapState (State.mapLink (Link.withReceiveOf · r) l) :=
  State.onLink_mapLink hlisted (Result.mapState_check _ (State.emitThen_withReceiveOf r hlisted fun _ => rfl))

theorem State.acceptData_withTransmitOf (k : Link) (d : Byte) :
    (s.mapLink (Link.withTransmitOf · r) l).acceptData l (k.withTransmitOf r) d =
      (s.acceptData l k d).mapState (State.mapLink (Link.withTransmitOf · r) l) := by
  by_cases hown : (k.slot k.act).own = .prod
  · rw [State.acceptData_free hown, State.acceptData_free (k := k.withTransmitOf r) hown, Link.accept_withTransmitOf]
    exact congrArg _ (State.setLink_mapLink hlisted _)
  · rw [State.acceptData_busy hown, State.acceptData_busy (k := k.withTransmitOf r) hown]
    rfl

theorem State.completeFrame_withTransmitOf (k : Link) :
    (s.mapLink (Link.withTransmitOf · r) l).completeFrame l (k.withTransmitOf r) =
      (s.completeFrame l k).mapLink (Link.withTransmitOf · r) l := by
  have hset (k' : Link) : (s.mapLink (Link.withTransmitOf · r) l).setLink l (k'.withTransmitOf r) =
      (s.setLink l k').mapLink (Link.withTransmitOf · r) l := State.setLink_mapLink hlisted k'
  by_cases hroom : s.rxq.length < s.params.rxqCap
  · rw [State.completeFrame_room hroom, State.completeFrame_room (s := s.mapLink _ l) hroom]
    exact congrArg (fun t : State => t.pushRxq { link := l, slot := k.act })
      (hset ((k.setSlot k.act k.completed).nextFrame s.params.nSlots))
  · rw [State.completeFrame_full (Nat.not_lt.mp hroom),
      State.completeFrame_full (s := s.mapLink _ l) (Nat.not_lt.mp hroom)]
    exact congrArg State.bumpRxqDrop (hset ((k.setSlot k.act (k.slot k.act).emptied).nextFrame s.params.nSlots))

theorem rxbBody_withTransmitOf (b : Byte) :
    rxbBody l b (s.mapLink (Link.withTransmitOf · r) l) =
      (rxbBody l b s).mapState (State.mapLink (Link.withTransmitOf · r) l) := by
  refine State.onLink_mapLink hlisted ?_
  have hclass : classify ((s.link l).withTransmitOf r).esc ((s.link l).withTransmitOf r).cnt b
      ((s.link l).withTransmitOf r).accmRx = classify (s.link l).esc (s.link l).cnt b (s.link l).accmRx := rfl
  rw [hclass]
  cases classify (s.link l).esc (s.link l).cnt b (s.link l).accmRx with
  | escaped => exact State.acceptData_withTransmitOf r hlisted { s.link l with esc := false } (unescape b)
  | escape => exact congrArg _ (State.setLink_mapLink hlisted { s.link l with esc := true })
  | frameEnd => exact congrArg _ (State.completeFrame_withTransmitOf r hlisted (s.link l))
  | empty | dropped => rfl
  | data => exact State.acceptData_withTransmitOf r hlisted (s.link l) b

end

/-- Settles O20: the body of each command commutes with a change of the other side of its link, which it neither looks
at nor writes. -/
theorem receiveAndTransmitAreIndependent : Obligations.ReceiveAndTransmitAreIndependent := by
  have hcommutes {s : State} {l : LinkNo} {g : Link → Link} {i : Instr}
      (h : l.toNat < s.links.length → exec i (s.mapLink g l) = mapNext (State.mapLink g l) (exec i s)) :
      exec i (s.mapLink g l) = mapNext (State.mapLink g l) (exec i s) := by
    by_cases hlisted : l.toNat < s.links.length
    · exact h hlisted
    · have hout := Nat.not_lt.mp hlisted
      rw [State.mapLink_unlisted hout, mapNext_mapLink_unlisted hout]
  refine ⟨fun s l r i hi => hcommutes (g := (Link.withReceiveOf · r)) fun hlisted => ?_,
    fun s l r b => hcommutes (g := (Link.withTransmitOf · r)) fun hlisted => ?_⟩
  · rcases hi with rfl | rfl | ⟨b, rfl⟩
    · exact State.command_mapLink (txsBody_withReceiveOf r hlisted)
    · exact State.command_mapLink (txeBody_withReceiveOf r hlisted)
    · exact State.command_mapLink (txdBody_withReceiveOf r hlisted b)
  · exact State.command_mapLink (rxbBody_withTransmitOf r hlisted b)

end Sys2Proof.Machine

namespace Sys2Proof.Machine

/-! ### The capacities of the queues and of the rings (`10_state.md` R37, `43_queues.md` R225) -/

theorem State.applyReset_queuesBounded (s : State) : s.applyReset.QueuesBounded :=
  ⟨Nat.zero_le _, Nat.zero_le _,
    State.applyReset_forall_links (P := fun k => k.ring.length ≤ s.params.txRingCap) (Nat.zero_le _)⟩

/-- Settles O15: an effect pushes to a queue or emits to a ring only where there is room, and reset empties them. -/
theorem stepKeepsQueuesBounded : Obligations.StepKeepsQueuesBounded := by
  intro s t hs h
  refine step_keeps (P := State.QueuesBounded) ?_ Effect.queuesBounded (fun _ => State.applyReset_queuesBounded _) hs h
  rintro s t ⟨e, a, r, n, rfl⟩ hs
  exact hs

/-- Settles O23: a step that is no reset makes one effect, which pushes one entry with room for it, pops the head, or
leaves the queue. -/
theorem queuesChangeByOnePushOrPop : Obligations.QueuesChangeByOnePushOrPop := by
  intro s t h hreset
  rcases step_effect h with ⟨rest, hp, -⟩ | ⟨s₁, i, u, ⟨_, _, _, _, rfl⟩, he, ⟨_, _, _, _, rfl⟩⟩
  · exact absurd hp (hreset rest)
  · refine ⟨he.rxq_cases, ?_⟩
    rcases he.txq_cases with hsame | ⟨l, -, hroom, hpush⟩ | hpop
    · exact .inl hsame
    · exact .inr (.inl ⟨l, hroom, hpush⟩)
    · exact .inr (.inr hpop)

/-! ### The queued slots, counted (`43_queues.md` R226) -/

/-- The numbers `0`, …, `len - 1` of a list's places, as a field of `n` bits. -/
def placeNumbers (n len : Nat) : List (BitVec n) := (List.range len).map (BitVec.ofNat n)

section
variable {n len : Nat} (h : len ≤ 2 ^ n)
include h

theorem toNat_ofNat_place {i : Nat} (hi : i < len) : (BitVec.ofNat n i).toNat = i := by
  rw [BitVec.toNat_ofNat, Nat.mod_eq_of_lt (Nat.lt_of_lt_of_le hi h)]

theorem nodup_placeNumbers : (placeNumbers n len).Nodup := by
  refine List.Nodup.map_on (fun i hi j hj hij => ?_) List.nodup_range
  have hnat := congrArg BitVec.toNat hij
  rwa [toNat_ofNat_place h (List.mem_range.mp hi), toNat_ofNat_place h (List.mem_range.mp hj)] at hnat

theorem mem_placeNumbers {i : BitVec n} : i ∈ placeNumbers n len ↔ i.toNat < len := by
  simp only [placeNumbers, List.mem_map, List.mem_range]
  refine ⟨?_, fun hi => ⟨i.toNat, hi, by simp⟩⟩
  rintro ⟨j, hj, rfl⟩
  rwa [toNat_ofNat_place h hj]

end

/-- A list is read off at its places. -/
theorem map_getD_placeNumbers {α : Type} {n : Nat} {xs : List α} (h : xs.length ≤ 2 ^ n) (d : α) :
    (placeNumbers n xs.length).map (fun i => xs.getD i.toNat d) = xs := by
  refine List.ext_getElem (by simp [placeNumbers]) fun i _ hi => ?_
  simp [placeNumbers, toNat_ofNat_place h hi, hi]

/-- The numbers of a link's queued slots. -/
def Link.queuedNumbers (k : Link) : List SlotNo :=
  (placeNumbers 4 k.slots.length).filter fun j => decide ((k.slot j).own = .queued)

theorem Link.length_queuedNumbers {k : Link} (h : k.slots.length ≤ 16) :
    k.queuedNumbers.length = k.slots.countP fun v => decide (v.own = .queued) := by
  conv_rhs => rw [← map_getD_placeNumbers (n := 4) h Slot.atReset]
  rw [List.countP_map, Link.queuedNumbers, ← List.countP_eq_length_filter]
  rfl

theorem Link.mem_queuedNumbers {k : Link} (h : k.slots.length ≤ 16) {j : SlotNo} :
    j ∈ k.queuedNumbers ↔ (k.slot j).own = .queued := by
  rw [Link.queuedNumbers, List.mem_filter, mem_placeNumbers (n := 4) h, decide_eq_true_iff]
  exact and_iff_right_of_imp fun hown => Link.slot_lt_of_own (by simp [hown])

/-- The queued slots of all links, as pairs of a link number and a slot number. -/
def State.queuedPairs (s : State) : List ((_ : LinkNo) × SlotNo) :=
  (placeNumbers 8 s.links.length).sigma fun l => (s.link l).queuedNumbers

/-- The two numbers that a descriptor names its slot by (R34). -/
def Descriptor.pair (d : Descriptor) : (_ : LinkNo) × SlotNo := ⟨d.link, d.slot⟩

theorem Descriptor.pair_injective : Function.Injective Descriptor.pair := by
  rintro ⟨l, j⟩ ⟨l', j'⟩ h
  cases h
  rfl

section
variable {s : State} (hs : s.Shape)
include hs

theorem State.Shape.slots_length_le (l : LinkNo) : (s.link l).slots.length ≤ 16 := by
  have ⟨⟨_, ⟨_, hmax⟩, _⟩, _, hk⟩ := hs
  refine State.link_of_forall (P := fun k => k.slots.length ≤ 16) ?_ (fun k hmem => (hk k hmem).1 ▸ hmax) l
  simpa [Link.atReset] using hmax

theorem State.Shape.links_length_le : s.links.length ≤ 256 := by
  obtain ⟨⟨⟨-, hmax⟩, -⟩, hlen, -⟩ := hs
  exact hlen ▸ hmax

theorem State.length_queuedPairs : s.queuedPairs.length = s.queuedSlots := by
  conv_rhs => rw [State.queuedSlots, ← map_getD_placeNumbers (n := 8) hs.links_length_le (Link.atReset s.params.nSlots)]
  rw [State.queuedPairs, List.length_sigma, List.map_map]
  exact congrArg List.sum (List.map_congr_left fun l _ => Link.length_queuedNumbers (hs.slots_length_le l))

theorem State.nodup_queuedPairs : s.queuedPairs.Nodup :=
  (nodup_placeNumbers (n := 8) hs.links_length_le).sigma fun l =>
    (nodup_placeNumbers (n := 4) (hs.slots_length_le l)).filter _

theorem State.pair_mem_queuedPairs {d : Descriptor} : d.pair ∈ s.queuedPairs ↔ s.ownAt d = .queued := by
  rw [Descriptor.pair, State.queuedPairs, List.mem_sigma, mem_placeNumbers (n := 8) hs.links_length_le,
    Link.mem_queuedNumbers (hs.slots_length_le d.link)]
  exact and_iff_right_of_imp fun hown => State.link_lt_of_own (d := d) (by simp [State.ownAt, hown])

end

/-- Settles O16: the queue's descriptors and the queued slots are the same pairs, each once. -/
theorem queuedSlotsEqualOccupancy : Obligations.QueuedSlotsEqualOccupancy := by
  intro s hs
  obtain ⟨hnodup, hmem, -⟩ := (State.descriptorsOk_iff hs.shape).mp hs.descriptors
  have hperm : s.queuedPairs.Perm (s.rxq.map Descriptor.pair) := by
    refine (List.perm_ext_iff_of_nodup (State.nodup_queuedPairs hs.shape)
      (hnodup.map Descriptor.pair_injective)).mpr fun ⟨l, j⟩ => ?_
    calc _ ↔ s.ownAt ⟨l, j⟩ = .queued := State.pair_mem_queuedPairs hs.shape (d := ⟨l, j⟩)
      _ ↔ ⟨l, j⟩ ∈ s.rxq := (hmem _).symm
      _ ↔ _ := (List.mem_map_of_injective Descriptor.pair_injective (a := ⟨l, j⟩)).symm
  rw [← State.length_queuedPairs hs.shape, hperm.length_eq, List.length_map]

end Sys2Proof.Machine

namespace Sys2Proof.Machine

/-! ### The response words (`30_encoding.md` R86) -/

/-- Two fields side by side, as the response words are computed. -/
theorem setWidth_append_eq_or (w : Nat) {n m : Nat} (x : BitVec n) (y : BitVec m) :
    (x ++ y).setWidth w = x.setWidth w <<< m ||| y.setWidth w := by
  refine BitVec.eq_of_getLsbD_eq fun i hi => ?_
  simp only [BitVec.getLsbD_or, BitVec.getLsbD_shiftLeft, BitVec.getLsbD_setWidth, BitVec.getLsbD_append]
  grind

theorem rxqpWord_eq (d : Descriptor) (len : Half) : rxqpWord d len = 0x8#4 ++ d.slot ++ d.link ++ len := by
  have hvalid (j : SlotNo) : 1#32 <<< 31 ||| j.setWidth 32 <<< 24 = (0x8#4 ++ j).setWidth 32 <<< 24 := by
    revert j; decide
  rw [rxqpWord, hvalid, ← setWidth_append_eq_or, ← setWidth_append_eq_or,
    BitVec.append_assoc' (x₁ := 0x8#4 ++ d.slot) (x₂ := d.link), BitVec.setWidth_cast]
  exact BitVec.setWidth_eq _

theorem txqpWord_eq (l : LinkNo) : txqpWord l = 0x80#8 ++ l ++ 0x0000#16 := by
  revert l; decide

theorem setWidth_byte_eq (b : Byte) : b.setWidth 32 = 0x000000#24 ++ b := by
  revert b; decide

theorem badFcsWord_eq (f : Half) : f.setWidth 32 <<< 16 ||| 2#32 = f ++ 0x0002#16 :=
  ((setWidth_append_eq_or 32 f 0x0002#16).symm.trans (BitVec.setWidth_eq _) :)

/-! ### The end of a queue or slot command (`43_queues.md` R205) -/

/-- A running block answers the response that a command's body gives. -/
theorem State.command_reply {s t : State} {i : Instr} {body : Result} {v : Word} (hs : s.Running)
    (h : body = .reply t v) : s.command i body = .next (t.respond v) :=
  (State.command_running hs i body).trans (congrArg (s.finish i) h)

/-- SlotCheck's three faults, in order. -/
theorem State.command_onHeldSlot_faults {s : State} (hs : s.Running) (i : Instr) (l : LinkNo) (j : SlotNo)
    (body : Link → Slot → Result) :
    (s.params.nLinks ≤ l.toNat → s.command i (s.onHeldSlot l j body) = .next (s.takeFault .badLink (encode i))) ∧
    (l.toNat < s.params.nLinks → s.params.nSlots ≤ j.toNat →
      s.command i (s.onHeldSlot l j body) = .next (s.takeFault .badSlot (encode i))) ∧
    (l.toNat < s.params.nLinks → j.toNat < s.params.nSlots → ((s.link l).slot j).own ≠ .held →
      s.command i (s.onHeldSlot l j body) = .next (s.takeFault .slotNotOwned (encode i))) :=
  ⟨fun hl => State.command_raise hs (State.onHeldSlot_badLink hl body),
    fun hl hj => State.command_raise hs (State.onHeldSlot_badSlot hl hj body),
    fun hl hj hown => State.command_raise hs (State.onHeldSlot_notOwned hl hj hown body)⟩

/-! ### The lines of the queue and slot commands (`30_encoding.md` R87) -/

/-- A line whose mnemonic takes a link and a slot, for any spelling of them. -/
theorem assembleLine_linkSlot {m t u : Token} {f : LinkNo → SlotNo → Instr} {l : LinkNo} {j : SlotNo} (hm : Clean m)
    (hline : ∀ args, assembleTokens (m :: args) = lineLinkSlot f args) (ht : fieldValue 8 t = some l)
    (hu : fieldValue 4 u = some j) : assembleLine (m ++ [' '] ++ t ++ [',', ' '] ++ u) = some [encode (f l j)] := by
  have htokens := assembleLine_tokens (us := [u]) hm (fieldValue_clean ht) (by simpa using fieldValue_clean hu)
  rw [hline] at htokens
  simpa [lineLinkSlot, ht, hu] using htokens

/-- A line that is a mnemonic alone. -/
theorem assembleLine_alone {m : Token} {i : Instr} (hm : Clean m) (hline : assembleTokens [m] = some [i]) :
    assembleLine m = some [encode i] := by
  rw [assembleLine, tokensFrom_last hm, hline]
  rfl

/-! ### What the invariant says of a slot (`10_state.md` R28, R29) -/

/-- What `fill` counts has been written (R29). -/
theorem State.Inv.read_ne_none {s : State} (hs : s.Inv) {l : LinkNo} {j : SlotNo} (hl : l.toNat < s.params.nLinks)
    (hj : j.toNat < s.params.nSlots) {n : Nat} (hn : n < ((s.link l).slot j).fill.toNat) :
    ((s.link l).slot j).data.read n ≠ none := by
  obtain ⟨-, -, -, -, -, -, hread⟩ := hs.receive _ (State.link_mem hs.shape hl) _ hj
  exact hread n hn

/-- A consumer-owned slot holds a frame of at least one byte (R146). -/
theorem State.Inv.len_ne_zero {s : State} (hs : s.Inv) {l : LinkNo} {j : SlotNo} (hl : l.toNat < s.params.nLinks)
    (hj : j.toNat < s.params.nSlots) (hown : ((s.link l).slot j).own ≠ .prod) : ((s.link l).slot j).len ≠ 0 := by
  obtain ⟨-, hcons, -⟩ := hs.receive _ (State.link_mem hs.shape hl) _ hj
  exact (hcons hown).1

/-! ### The outcomes of the queue and slot commands (`43_queues.md` R200 to R220) -/

/-- A frame that passes the size test is judged by the residue of its bytes (R210, R211). -/
theorem fchkBody_fcs {s : State} {l : LinkNo} {j : SlotNo} {d : List Byte} (hl : l.toNat < s.params.nLinks)
    (hj : j.toNat < s.params.nSlots) (hown : ((s.link l).slot j).own = .held)
    (hmru : ((s.link l).slot j).len.toNat ≤ (s.link l).mru.toNat)
    (hfill : ((s.link l).slot j).len.toNat ≤ ((s.link l).slot j).fill.toNat)
    (hd : ((s.link l).slot j).data.bytes ((s.link l).slot j).len.toNat = some d) :
    fchkBody l j s = s.fcsVerdict (fcsOver fcsSeed d) := by
  rw [fchkBody, State.onHeldSlot_ok hl hj hown, if_neg (not_or.mpr ⟨Nat.not_lt.mpr hmru, Nat.not_lt.mpr hfill⟩), hd]

section
variable {s : State} (hs : s.Running)
include hs

theorem exec_rxqp_empty (h : s.rxq = []) : exec .rxqp s = .next (s.respond 0) :=
  State.command_reply hs (by rw [rxqpBody, h])

theorem exec_rxqp_pops {d : Descriptor} {rest : List Descriptor} (h : s.rxq = d :: rest) :
    exec .rxqp s = .next
      (((s.setRxq rest).setSlot d.link d.slot { (s.link d.link).slot d.slot with own := .held }).respond
        (rxqpWord d ((s.link d.link).slot d.slot).len)) :=
  State.command_reply hs (by rw [rxqpBody, h])

theorem exec_txqp_empty (h : s.txq = []) : exec .txqp s = .next (s.respond 0) :=
  State.command_reply hs (by rw [txqpBody, h])

theorem exec_txqp_pops {l : LinkNo} {rest : List LinkNo} (h : s.txq = l :: rest) :
    exec .txqp s = .next ((s.setTxq rest).respond (txqpWord l)) :=
  State.command_reply hs (by rw [txqpBody, h])

variable {l : LinkNo} {j : SlotNo} (hl : l.toNat < s.params.nLinks) (hj : j.toNat < s.params.nSlots)
  (hown : ((s.link l).slot j).own = .held)
include hl hj hown

/-- At or beyond `fill` nothing is read (R206). -/
theorem exec_slrd_range {n : Half} (hn : ((s.link l).slot j).fill.toNat ≤ n.toNat) :
    exec (.slrd l j n) s = .next (s.takeFault .slotReadRange (encode (.slrd l j n))) :=
  State.command_raise hs (by rw [slrdBody, State.onHeldSlot_ok hl hj hown, if_pos hn])

theorem exec_slrd_reads {n : Half} {b : Byte} (hn : n.toNat < ((s.link l).slot j).fill.toNat)
    (hb : ((s.link l).slot j).data.read n.toNat = some b) :
    exec (.slrd l j n) s = .next (s.respond (b.setWidth 32)) :=
  State.command_reply hs (by rw [slrdBody, State.onHeldSlot_ok hl hj hown, if_neg (Nat.not_le.mpr hn), hb])

/-- The size verdict (R210). -/
theorem exec_fchk_size (hsize : (s.link l).mru.toNat < ((s.link l).slot j).len.toNat ∨
      ((s.link l).slot j).fill.toNat < ((s.link l).slot j).len.toNat) :
    exec (.fchk l j) s = .next (s.bumpMruErr.respond 1) :=
  State.command_reply hs (by rw [fchkBody, State.onHeldSlot_ok hl hj hown, if_pos hsize])

theorem exec_slrl_releases :
    exec (.slrl l j) s = .next (s.setSlot l j { ((s.link l).slot j).emptied with own := .prod }).noReply :=
  State.command_done hs (by rw [slrlBody, State.onHeldSlot_ok hl hj hown])

end

/-- Settles O46: the queue's head decides the response, and the invariant says that a queued slot is one that exists,
with a nonzero length. -/
theorem rxqpPopsDescriptor : Obligations.RxqpPopsDescriptor := by
  refine ⟨fun w => decode_eq_ok_iff, assembleLine_alone (i := .rxqp) (by simp [Clean]) (by simp [assembleTokens]),
    fun s hs => ⟨exec_rxqp_empty hs, fun d hd hinv => ?queued, fun d rest hq => ?pops⟩⟩
  case queued =>
    have ⟨_, hmem, _⟩ := hinv.descriptors
    obtain ⟨hl, hj, hown⟩ := hmem d hd
    exact ⟨hown, hinv.len_ne_zero hl hj (by simp [hown])⟩
  case pops =>
    intro v
    rw [← rxqpWord_eq]
    exact exec_rxqp_pops hs hq

/-- Settles O50, by the queue's head. -/
theorem txqpPopsCompletion : Obligations.TxqpPopsCompletion := by
  refine ⟨fun w => decode_eq_ok_iff, assembleLine_alone (i := .txqp) (by simp [Clean]) (by simp [assembleTokens]),
    fun s hs => ⟨exec_txqp_empty hs, fun l rest hq => ?_⟩⟩
  rw [← txqpWord_eq]
  exact exec_txqp_pops hs hq

/-- Settles O47: below `fill` the invariant gives the byte to respond with. -/
theorem slrdReadsHeldByte : Obligations.SlrdReadsHeldByte := by
  refine ⟨fun w l j n => decode_eq_ok_iff, fun t u v l j n ht hu hv => ?line, fun s l j n hinv hs => ?exec⟩
  case line =>
    have htokens := assembleLine_tokens (m := "SLRD".toList) (us := [u, v]) (by simp [Clean]) (fieldValue_clean ht)
      (by simpa using ⟨fieldValue_clean hu, fieldValue_clean hv⟩)
    simpa [assembleTokens, ht, hu, hv] using htokens
  case exec =>
    intro v
    obtain ⟨hbadLink, hbadSlot, hnotOwned⟩ := State.command_onHeldSlot_faults hs (.slrd l j n) l j _
    refine ⟨hbadLink, hbadSlot, hnotOwned, fun hl hj hown => exec_slrd_range hs hl hj hown, fun hl hj hown hn => ?_⟩
    obtain ⟨b, hb⟩ := Option.ne_none_iff_exists'.mp (hinv.read_ne_none hl hj hn)
    exact ⟨b, hb, setWidth_byte_eq b ▸ exec_slrd_reads hs hl hj hown hn hb⟩

/-- Settles O48: a frame that passes the size test is stored whole, so its residue gives the verdict. -/
theorem fchkGivesVerdict : Obligations.FchkGivesVerdict := by
  refine ⟨fun w l j => decode_eq_ok_iff, fun t u l j ht hu => ?line, fun s l j hinv hs => ?exec⟩
  case line => exact assembleLine_linkSlot (m := "FCHK".toList) (by simp [Clean]) (by simp [assembleTokens]) ht hu
  case exec =>
    intro v
    obtain ⟨hbadLink, hbadSlot, hnotOwned⟩ := State.command_onHeldSlot_faults hs (.fchk l j) l j _
    refine ⟨hbadLink, hbadSlot, hnotOwned, fun hl hj hown => exec_fchk_size hs hl hj hown,
      fun hl hj hown hmru hfill => ?_⟩
    obtain ⟨d, hd⟩ := Memory.bytes_isSome fun n hn => hinv.read_ne_none hl hj (Nat.lt_of_lt_of_le hn hfill)
    have hbody := fchkBody_fcs hl hj hown hmru hfill hd
    refine ⟨d, hd, fun hgood => ?_, fun hbad => ?_⟩
    · exact State.command_reply hs (hbody.trans (by rw [State.fcsVerdict, fcsSeed, hgood]; rfl))
    · rw [← badFcsWord_eq]
      exact State.command_reply hs (hbody.trans (if_neg hbad))

/-- Settles O49: after the release the slot is producer-owned, so SlotCheck refuses it. -/
theorem slrlReleasesSlot : Obligations.SlrlReleasesSlot := by
  refine ⟨fun w l j => decode_eq_ok_iff, fun t u l j ht hu => ?line, fun s l j hshape hs => ?exec⟩
  case line => exact assembleLine_linkSlot (m := "SLRL".toList) (by simp [Clean]) (by simp [assembleTokens]) ht hu
  case exec =>
    intro v
    obtain ⟨hbadLink, hbadSlot, hnotOwned⟩ := State.command_onHeldSlot_faults hs (.slrl l j) l j _
    refine ⟨hbadLink, hbadSlot, hnotOwned, fun hl hj hown => ?_⟩
    intro t
    refine ⟨exec_slrl_releases hs hl hj hown, ?_⟩
    obtain ⟨-, -, hagain⟩ := State.command_onHeldSlot_faults (s := t) hs (.slrl l j) l j _
    have hslot : (t.link l).slot j = { v with own := .prod, len := 0, fill := 0 } :=
      (State.slot_setSlot hshape hl hj _ l j).trans (if_pos ⟨rfl, rfl⟩)
    exact hagain hl hj (by simp [hslot])

/-! ### What the queue commands leave unchanged (`20_memory.md` R67) -/

/-- RXQP has no fault: it answers with nothing else changed, or takes the queue's head. -/
theorem exec_rxqp_cases {s t : State} (h : exec .rxqp s = .next t) : ∃ r,
    t = { s with response := r } ∨
    ∃ d rest, s.rxq = d :: rest ∧
      t = { (s.setRxq rest).setSlot d.link d.slot { (s.link d.link).slot d.slot with own := .held } with
            response := r } := by
  rcases Bool.eq_false_or_eq_true s.faultValid with halted | hrun
  · exact ⟨_, .inl (Host.Outcome.next.inj (h.symm.trans (State.command_halted halted _ _)))⟩
  · by_cases hq : s.rxq = []
    · exact ⟨_, .inl (Host.Outcome.next.inj (h.symm.trans (exec_rxqp_empty hrun hq)))⟩
    · obtain ⟨d, rest, hq⟩ := List.exists_cons_of_ne_nil hq
      exact ⟨_, .inr ⟨d, rest, hq, Host.Outcome.next.inj (h.symm.trans (exec_rxqp_pops hrun hq))⟩⟩

/-- TXQP has no fault: it answers with another TX Notification Queue at most. -/
theorem exec_txqp_cases {s t : State} (h : exec .txqp s = .next t) :
    ∃ q r, t = { s with txq := q, response := r } := by
  rcases Bool.eq_false_or_eq_true s.faultValid with halted | hrun
  · exact ⟨_, _, Host.Outcome.next.inj (h.symm.trans (State.command_halted halted _ _))⟩
  · by_cases hq : s.txq = []
    · exact ⟨_, _, Host.Outcome.next.inj (h.symm.trans (exec_txqp_empty hrun hq))⟩
    · obtain ⟨l, rest, hq⟩ := List.exists_cons_of_ne_nil hq
      exact ⟨rest, _, Host.Outcome.next.inj (h.symm.trans (exec_txqp_pops hrun hq))⟩

/-- SLRL releases the slot it names, or changes at most the latch. -/
theorem Effect.slrl_cases {s u : State} {l : LinkNo} {p : SlotNo} (he : Effect s (some (.slrl l p)) u) :
    (∃ v c w, u = { s with faultValid := v, faultCode := c, faultCmd := w }) ∨
    u = s.setSlot l p { ((s.link l).slot p).emptied with own := .prod } := by
  cases he with
  | nothing => exact .inl ⟨_, _, _, rfl⟩
  | latched => exact .inl ⟨_, _, _, rfl⟩
  | write hw =>
    cases hw with
    | receive hr =>
      cases hr with
      | released => exact .inr rfl
    | transmit ht => cases ht

/-- All of two links but their slots is the same. -/
def Link.SameButSlots (k k' : Link) : Prop :=
  k.SameTransmit k' ∧ k.SameConfig k' ∧ k'.esc = k.esc ∧ k'.cnt = k.cnt ∧ k'.act = k.act

theorem Link.sameButSlots_refl (k : Link) : k.SameButSlots k :=
  ⟨⟨rfl, rfl, rfl, rfl, rfl, rfl⟩, ⟨rfl, rfl, rfl, rfl, rfl⟩, rfl, rfl, rfl⟩

section
variable (s : State) (l : LinkNo) (p : SlotNo) (v : Slot) (m : LinkNo) (j : SlotNo)

/-- A link after the write of one slot is the link with that slot written, or untouched. -/
theorem State.link_setSlot_cases :
    (m = l ∧ (s.setSlot l p v).link m = (s.link m).setSlot p v) ∨ (s.setSlot l p v).link m = s.link m := by
  by_cases hm : m = l
  · subst hm
    by_cases hlisted : m.toNat < s.links.length
    · exact .inl ⟨rfl, State.link_setLink_same _ hlisted⟩
    · exact .inr (by rw [State.setSlot, State.setLink, List.set_eq_of_length_le (Nat.not_lt.mp hlisted)])
  · exact .inr (State.link_setLink_other s _ hm)

theorem State.setSlot_sameButSlots : (s.link m).SameButSlots ((s.setSlot l p v).link m) := by
  rcases s.link_setSlot_cases l p v m with ⟨-, hlink⟩ | hlink
  · exact hlink ▸ (s.link m).sameButSlots_refl
  · exact hlink ▸ (s.link m).sameButSlots_refl

/-- A slot after the write of one slot is the one written, or untouched. -/
theorem State.slot_setSlot_cases :
    (m = l ∧ j = p ∧ ((s.setSlot l p v).link m).slot j = v) ∨
    ((s.setSlot l p v).link m).slot j = (s.link m).slot j := by
  rcases s.link_setSlot_cases l p v m with ⟨hm, hlink⟩ | hlink
  · rw [hlink]
    exact ((s.link m).slot_setSlot_cases p v j).imp_left fun ⟨hj, hv⟩ => ⟨hm, hj, hv⟩
  · exact .inr (congrArg (Link.slot · j) hlink)

variable {s l p v}

theorem State.slot_setSlot_other (h : ¬ (m = l ∧ j = p)) :
    ((s.setSlot l p v).link m).slot j = (s.link m).slot j :=
  (s.slot_setSlot_cases l p v m j).resolve_left fun ⟨hm, hj, _⟩ => h ⟨hm, hj⟩

/-- What the written slot has in common with the one before it, every slot has in common. -/
theorem State.slot_setSlot_congr {α : Type} {f : Slot → α} (h : f v = f ((s.link l).slot p)) :
    f (((s.setSlot l p v).link m).slot j) = f ((s.link m).slot j) := by
  rcases s.slot_setSlot_cases l p v m j with ⟨rfl, rfl, hv⟩ | hsame
  · rw [hv, h]
  · rw [hsame]

end

/-- Settles O51: RXQP and SLRL write one slot, whose bytes stay, and TXQP writes its queue only. -/
theorem queueCommandFrame : Obligations.QueueCommandFrame := by
  intro s t i h
  refine ⟨?rxqp, ?slrl, ?txqp⟩
  case rxqp =>
    rintro rfl
    obtain ⟨r, rfl | ⟨d, rest, hq, rfl⟩⟩ := exec_rxqp_cases h
    · exact ⟨⟨rfl, rfl⟩, rfl, ⟨rfl, rfl⟩, ⟨rfl, rfl, rfl, rfl⟩, rfl, rfl, rfl, fun m => (s.link m).sameButSlots_refl,
        fun _ _ _ => rfl, fun _ _ => ⟨rfl, rfl⟩, fun _ _ _ => rfl⟩
    · refine ⟨⟨rfl, rfl⟩, rfl, ⟨rfl, rfl⟩, ⟨rfl, rfl, rfl, rfl⟩, rfl, rfl, rfl,
        fun m => State.setSlot_sameButSlots _ _ _ _ m, fun m j hhead => State.slot_setSlot_other m j ?_,
        fun m j => ⟨State.slot_setSlot_congr m j (f := Slot.len) rfl,
          State.slot_setSlot_congr m j (f := Slot.fill) rfl⟩,
        fun m j n => State.slot_setSlot_congr m j (f := fun v => v.data.read n) rfl⟩
      rintro ⟨rfl, rfl⟩
      exact hhead (by rw [hq, List.head?_cons])
  case slrl =>
    rintro l p rfl
    obtain ⟨u, r, he, rfl⟩ := exec_effect_response h
    rcases he.slrl_cases with ⟨v, c, w, rfl⟩ | rfl
    · obtain ⟨htransmit, hconfig, hesc, hcnt, hact⟩ := (s.link l).sameButSlots_refl
      exact ⟨⟨rfl, rfl⟩, ⟨rfl, rfl⟩, ⟨rfl, rfl⟩, ⟨rfl, rfl, rfl, rfl⟩, fun _ _ => rfl, htransmit, hconfig, hesc, hcnt,
        hact, fun _ _ => rfl, fun _ _ _ => rfl⟩
    · obtain ⟨htransmit, hconfig, hesc, hcnt, hact⟩ :=
        s.setSlot_sameButSlots l p { ((s.link l).slot p).emptied with own := .prod } l
      exact ⟨⟨rfl, rfl⟩, ⟨rfl, rfl⟩, ⟨rfl, rfl⟩, ⟨rfl, rfl, rfl, rfl⟩, fun m hm => State.link_setLink_other s _ hm,
        htransmit, hconfig, hesc, hcnt, hact, fun j hj => State.slot_setSlot_other l j fun hlp => hj hlp.2,
        fun m j n => State.slot_setSlot_congr m j (f := fun v => v.data.read n) rfl⟩
  case txqp =>
    rintro rfl
    obtain ⟨q, r, rfl⟩ := exec_txqp_cases h
    exact ⟨rfl, ⟨rfl, rfl⟩, rfl, ⟨rfl, rfl⟩, ⟨rfl, rfl, rfl, rfl⟩, rfl, rfl, rfl⟩

end Sys2Proof.Machine

namespace Sys2Proof.Machine

/-! ### Who writes the configuration registers (`44_control.md` R247) -/

theorem Link.sameConfig_refl (k : Link) : k.SameConfig k := ⟨rfl, rfl, rfl, rfl, rfl⟩

section
variable {s u : State} {i : Option Instr} {l m : LinkNo} {k : Link} {f : State → State}

theorem ReceiveWrite.sameConfig (h : ReceiveWrite s i l k f) : (s.link l).SameConfig k := by
  cases h with
  | data l b d => exact Link.accept_sameConfig { s.link l with esc := false } s.params.slotCap d
  | _ => exact Link.sameConfig_refl _

/-- A write of a link leaves its configuration registers, or is CFGL's or CFGH's. -/
theorem LinkWrite.sameConfig_or (h : LinkWrite s i l k f) :
    (s.link l).SameConfig k ∨ ∃ r v, i = some (.cfgl l r v) ∨ i = some (.cfgh l r v) := by
  cases h with
  | receive h => exact .inl h.sameConfig
  | transmit h => exact .inl h.sameConfig
  | configLow l r v => exact .inr ⟨r, v, .inl rfl⟩
  | configHigh l r v => exact .inr ⟨r, v, .inr rfl⟩
  | reinit => exact .inl (Link.sameConfig_refl _)

theorem Effect.sameConfig_or (he : Effect s i u) (l : LinkNo) :
    (s.link l).SameConfig (u.link l) ∨ ∃ r v, i = some (.cfgl l r v) ∨ i = some (.cfgh l r v) := by
  rcases he.link l with hl | ⟨f, hw⟩
  · exact .inl (hl ▸ Link.sameConfig_refl _)
  · exact hw.sameConfig_or

/-- The drain engine writes no configuration register. -/
theorem State.drain_sameConfig (hen : s.drainEnabled m = true) (l : LinkNo) :
    (s.link l).SameConfig ((s.drain m).link l) :=
  ((State.drain_effect hen).sameConfig_or l).resolve_right (by simp)

end

/-- Settles O17: of all that a step can do, only the reset and the writes of CFGL and CFGH reach a configuration
register. -/
theorem onlyConfigCommandsWriteConfig : Obligations.OnlyConfigCommandsWriteConfig := by
  intro s t l h hchanged
  rcases step_cases h with ⟨-, -, rfl⟩ | ⟨-, m, hen, rfl⟩ | ⟨a, w, rest, i, hp, hw, hx⟩ |
    ⟨a, w, rest, e, -, -, ⟨-, rfl⟩ | ⟨-, rfl⟩⟩ | ⟨m, rest, -, ⟨hen, rfl⟩ | ⟨-, rfl⟩⟩ | ⟨rest, hp, -⟩
  · exact absurd (s.link l).sameConfig_refl hchanged
  · exact absurd (State.drain_sameConfig hen l) hchanged
  · obtain ⟨u, he, hu⟩ := exec_effect hx
    rw [hu.link] at hchanged
    rcases (he.sameConfig_or l).resolve_left hchanged with ⟨r, v, hi | hi⟩ <;> cases hi
    · exact .inr ⟨a, w, rest, r, v, hp, .inl hw⟩
    · exact .inr ⟨a, w, rest, r, v, hp, .inr hw⟩
  · exact absurd (s.link l).sameConfig_refl hchanged
  · exact absurd (s.link l).sameConfig_refl hchanged
  · exact absurd (State.drain_sameConfig (s := s.setPending rest) hen l) hchanged
  · exact absurd (s.link l).sameConfig_refl hchanged
  · exact .inl ⟨rest, hp⟩

end Sys2Proof.Machine

namespace Sys2Proof.Machine

/-! ### The values that CFGR and STRD respond with (`44_control.md` R243, R244) -/

theorem setWidth_half_eq (v : Half) : v.setWidth 32 = 0#16 ++ v :=
  BitVec.setWidth_eq_append (x := v) (w := 32) (by decide)

theorem flagBit_eq_setWidth (b : Bool) : flagBit b = (BitVec.ofBool b).setWidth 32 := by
  cases b <;> rfl

theorem flagBit_eq_append (b : Bool) : flagBit b = 0#31 ++ BitVec.ofBool b := by
  cases b <;> rfl

/-- LSTAT's fields side by side (R45). -/
theorem Link.lstat_eq (k : Link) :
    k.lstat = k.cnt ++ 0#8 ++ k.act ++ BitVec.ofBool k.txm ++ BitVec.ofBool k.arm ++ BitVec.ofBool k.txo ++
      BitVec.ofBool k.esc := by
  refine Eq.trans ?_ (BitVec.setWidth_eq _)
  simp only [Link.lstat, flagBit_eq_setWidth, setWidth_append_eq_or, BitVec.shiftLeft_or_distrib,
    ← BitVec.shiftLeft_add, BitVec.setWidth_zero, BitVec.or_zero]

/-- A FIFO's occupancy fits in bits 15:0 as long as its capacity does (R46, R49). -/
theorem occupancy_eq {n cap : Nat} (hn : n ≤ cap) (hcap : cap ≤ 65535) : occupancy n = BitVec.ofNat 32 n := by
  apply BitVec.eq_of_toNat_eq
  rw [occupancy, BitVec.toNat_setWidth, BitVec.toNat_ofNat, BitVec.toNat_ofNat]
  omega

/-! ### The words and the lines of the configuration commands (`30_encoding.md` R81, R87) -/

theorem encode_strd (r : RegSel) : encode (.strd r) = 0xD#4 ++ r ++ 0x000000#24 := by
  revert r; decide

theorem assembleLine_strd {t : Token} {r : RegSel} (ht : selector strdNames t = some r) :
    assembleLine ("STRD".toList ++ [' '] ++ t) = some [encode (.strd r)] := by
  rw [assembleLine, tokensFrom_one (by simp [Clean]) (selector_clean strdNames_clean ht)]
  simp [assembleTokens, ht]

theorem assembleLine_cfgr {t u : Token} {l : LinkNo} {r : RegSel} (ht : fieldValue 8 t = some l)
    (hu : selector cfgNames u = some r) :
    assembleLine ("CFGR".toList ++ [' '] ++ t ++ [',', ' '] ++ u) = some [encode (.cfgr l r)] := by
  have htokens := assembleLine_tokens (m := "CFGR".toList) (us := [u]) (by simp [Clean]) (fieldValue_clean ht)
    (by simpa using selector_clean cfgNames_clean hu)
  simpa [assembleTokens, ht, hu] using htokens

/-! ### The outcomes of the configuration commands (`44_control.md` R240 to R246) -/

theorem cfgSel_not_writable {r : RegSel} (hr : 5 ≤ r.toNat) : (cfgSelExists r && cfgSelWritable r) = false := by
  rw [cfgSel_writable, decide_eq_false (Nat.not_lt.mpr hr)]

section
variable {s : State} {l : LinkNo} {r : RegSel} (hs : s.Running)
include hs

section
variable (hr : r.toNat < 5)
include hr

theorem State.command_cfgWrite_badLink (hl : s.params.nLinks ≤ l.toNat) (i : Instr) (body : Link → Result) :
    s.command i (cfgWriteCheck r (s.onLink l body)) = .next (s.takeFault .badLink (encode i)) :=
  State.command_raise hs (by rw [cfgWriteCheck_eq, if_pos hr, State.onLink_bad hl])

theorem exec_cfgl_writes (hl : l.toNat < s.params.nLinks) (v : Half) :
    exec (.cfgl l r v) s = .next (s.setLink l ((s.link l).writeLow r v)).noReply :=
  State.command_done hs (by rw [cfgWriteCheck_eq, if_pos hr, State.onLink_ok hl])

theorem exec_cfgh_writes (hl : l.toNat < s.params.nLinks) (v : Half) :
    exec (.cfgh l r v) s = .next (s.setLink l ((s.link l).writeHigh r v)).noReply :=
  State.command_done hs (by rw [cfgWriteCheck_eq, if_pos hr, State.onLink_ok hl])

end

section
variable (hr : r.toNat < 7)
include hr

theorem exec_cfgr_badLink (hl : s.params.nLinks ≤ l.toNat) :
    exec (.cfgr l r) s = .next (s.takeFault .badLink (encode (.cfgr l r))) :=
  State.command_raise hs (by rw [cfgReadCheck_eq, if_pos hr, State.onLink_bad hl])

theorem exec_cfgr_reads (hl : l.toNat < s.params.nLinks) :
    exec (.cfgr l r) s = .next (s.respond ((s.link l).readReg r)) :=
  State.command_reply hs (by rw [cfgReadCheck_eq, if_pos hr, State.onLink_ok hl])

end

theorem exec_strd_reads (hr : r.toNat < 6) : exec (.strd r) s = .next (s.respond (s.readStatus r)) :=
  State.command_reply hs (by rw [strdCheck_eq, if_pos hr])

theorem exec_linit_badLink (hl : s.params.nLinks ≤ l.toNat) :
    exec (.linit l) s = .next (s.takeFault .badLink (encode (.linit l))) :=
  State.command_raise hs (State.onLink_bad hl _)

theorem exec_linit_busy (hl : l.toNat < s.params.nLinks) (hbusy : (s.link l).busy = true) :
    exec (.linit l) s = .next (s.takeFault .linkBusy (encode (.linit l))) :=
  State.command_raise hs (by rw [linitBody, State.onLink_ok hl, if_pos hbusy])

theorem exec_linit_reinit (hl : l.toNat < s.params.nLinks) (hquiet : (s.link l).busy = false) :
    exec (.linit l) s = .next (s.setLink l (s.link l).reinit).noReply :=
  State.command_done hs (by rw [linitBody, State.onLink_ok hl, hquiet, if_neg Bool.false_ne_true])

end

/-- Settles O52: the selector picks the register whose low half is written. -/
theorem cfglWritesLowHalf : Obligations.CfglWritesLowHalf := by
  refine ⟨fun w l r v => decode_eq_ok_iff, fun t u x l r v ht hu hx => ?line, fun s l v hs => ?exec⟩
  case line =>
    have hline := assembleLine_linkReg (m := "CFGL".toList) (f := fun l r v => [.cfgl l r v]) (by simp [Clean])
      (by simp [assembleTokens]) ht hu hx
    simpa using hline
  case exec =>
    refine ⟨fun r hr => exec_illegal hs (cfgSel_not_writable hr),
      fun r hr hl => State.command_cfgWrite_badLink hs hr hl _ _, fun hl => ?_⟩
    and_intros <;> exact exec_cfgl_writes hs (by decide) hl v

/-- Settles O53: the selector picks the register whose high half is written; three of the five have none. -/
theorem cfghWritesHighHalf : Obligations.CfghWritesHighHalf := by
  refine ⟨fun w l r v => decode_eq_ok_iff, fun t u x l r v ht hu hx => ?line, fun s l v hs => ?exec⟩
  case line =>
    have hline := assembleLine_linkReg (m := "CFGH".toList) (f := fun l r v => [.cfgh l r v]) (by simp [Clean])
      (by simp [assembleTokens]) ht hu hx
    simpa using hline
  case exec =>
    refine ⟨fun r hr => exec_illegal hs (cfgSel_not_writable hr),
      fun r hr hl => State.command_cfgWrite_badLink hs hr hl _ _,
      fun hl => ⟨exec_cfgh_writes hs (by decide) hl v, exec_cfgh_writes hs (by decide) hl v, ?_⟩⟩
    rintro r (rfl | rfl | rfl) <;> exact exec_cfgh_writes hs (by decide) hl v

/-- Settles O54: the selector picks the register, and the ring's capacity bounds TXOCC. -/
theorem cfgrReadsRegister : Obligations.CfgrReadsRegister := by
  refine ⟨fun w l r => decode_eq_ok_iff, fun t u l r ht hu => assembleLine_cfgr ht hu, fun s l hinv hs => ?_⟩
  intro k
  refine ⟨fun r hr => exec_illegal hs (by simpa [Instr.wf, cfgSelExists] using hr),
    fun r hr hl => exec_cfgr_badLink hs hr hl, fun hl => ?_⟩
  obtain ⟨-, -, -, -, -, -, hcap⟩ := hinv.shape.1
  have ⟨_, _, hring⟩ := hinv.queues
  rw [← setWidth_half_eq, ← setWidth_half_eq, ← flagBit_eq_append, ← Link.lstat_eq,
    ← occupancy_eq (hring k (State.link_mem hinv.shape hl)) hcap]
  and_intros <;> exact exec_cfgr_reads hs (by decide) hl

/-- Settles O55: the selector picks the status value, and the queues' capacities bound their occupancies. -/
theorem strdReadsStatus : Obligations.StrdReadsStatus := by
  refine ⟨fun w r => decode_eq_ok_iff.trans (by rw [encode_strd]), fun t r ht => assembleLine_strd ht,
    fun s hinv hs => ?_⟩
  obtain ⟨-, -, -, ⟨-, hrxqCap⟩, ⟨-, htxqCap⟩, -⟩ := hinv.shape.1
  have ⟨hrxq, htxq, _⟩ := hinv.queues
  rw [← occupancy_eq hrxq hrxqCap, ← occupancy_eq htxq htxqCap]
  refine ⟨fun r hr => exec_illegal hs (by simpa [Instr.wf, strdSelExists] using hr), ?_⟩
  and_intros <;> exact exec_strd_reads hs (by decide)

/-! ### LINIT (`44_control.md` R245) -/

/-- R245's test of a link, by the numbers of its slots. -/
theorem Link.busy_eq_false_iff {k : Link} (h : k.slots.length ≤ 16) : k.busy = false ↔
    k.txo = false ∧ k.arm = false ∧ ∀ j : SlotNo, j.toNat < k.slots.length → (k.slot j).own = .prod := by
  constructor
  · intro hquiet
    have hflags := hquiet
    simp only [Link.busy, Bool.or_eq_false_iff] at hflags
    obtain ⟨⟨htxo, harm⟩, -⟩ := hflags
    exact ⟨htxo, harm, fun j _ => Link.own_of_quiet hquiet j.toNat⟩
  · rintro ⟨htxo, harm, hown⟩
    have hslots : ∀ v ∈ k.slots, v.own = .prod := by
      refine List.forall_mem_iff_getElem.mpr fun j hj => ?_
      have hplace : (BitVec.ofNat 4 j).toNat = j := toNat_ofNat_place h hj
      have hj' := hown (BitVec.ofNat 4 j) (hplace.symm ▸ hj)
      rwa [Link.slot, hplace, List.getD_eq_getElem _ _ hj] at hj'
    simpa [Link.busy, htxo, harm] using hslots

/-- Settles O56: the test of R245 decides, and an idle link's ring is empty. -/
theorem linitReinitialisesQuiescentLink : Obligations.LinitReinitialisesQuiescentLink := by
  refine ⟨fun w l => decode_eq_ok_iff, fun t l ht => ?line, fun s l hinv hs => ?exec⟩
  case line => exact assembleLine_link (m := "LINIT".toList) (by simp [Clean]) (by simp [assembleTokens]) ht
  case exec =>
    intro k quiescent
    have hbusy (hl : l.toNat < s.params.nLinks) : k.busy = false ↔ quiescent := by
      rw [Link.busy_eq_false_iff (hinv.shape.slots_length_le l), hinv.shape.slots_length hl]
    refine ⟨exec_linit_badLink hs, fun hl hq => ?_, fun hl hq => ⟨?_, exec_linit_reinit hs hl ((hbusy hl).mpr hq)⟩⟩
    · exact exec_linit_busy hs hl (Bool.eq_true_of_not_eq_false fun hquiet => hq ((hbusy hl).mp hquiet))
    · obtain ⟨htxo, harm, -⟩ := hq
      obtain ⟨-, -, hidle, -⟩ := hinv.transmit k (State.link_mem hinv.shape hl)
      exact hidle htxo harm

/-! ### NOP (`44_control.md` R246) -/

theorem decode_of_op_zero {w : Word} (hop : opField w = 0x0) (hw : w ≠ 0x00000000) :
    decode w = .error .mustBeZero := by
  rw [decode, hop]
  exact spelled_eq_error.mpr ⟨fun h => hw (BitVec.and_allOnes.symm.trans h), rfl⟩

/-- Settles O57: NOP has an empty body, and its row of the opcode map admits one word. -/
theorem nopDoesNothing : Obligations.NopDoesNothing :=
  ⟨fun _ => decode_eq_ok_iff, assembleLine_alone (i := .nop) (by simp [Clean]) (by simp [assembleTokens]),
    fun s hs => ⟨exec_nop s, fun _ hop hw => State.meetWord_illegal (decode_of_op_zero hop hw) hs⟩⟩

/-! ### What CFGL, CFGH and LINIT leave unchanged (`44_control.md` R241, R242, R245) -/

theorem State.link_setLink_cases (s : State) (l : LinkNo) (k : Link) :
    (s.setLink l k).link l = k ∨ (s.setLink l k).link l = s.link l := by
  by_cases hlisted : l.toNat < s.links.length
  · exact .inl (State.link_setLink_same k hlisted)
  · exact .inr (by rw [State.setLink, List.set_eq_of_length_le (Nat.not_lt.mp hlisted)])

/-- `k'` is the link `k` with no more written than command `i`, one of CFGL, CFGH and LINIT of link `l`, may write. -/
structure Link.ConfiguredBy (i : Instr) (l : LinkNo) (k k' : Link) : Prop where
  wire : k'.wire = k.wire
  ring : k'.ring = k.ring
  txo : k'.txo = k.txo
  arm : k'.arm = k.arm
  sameState : i ≠ .linit l → k.SameReceive k' ∧ k.SameTransmit k'
  sameConfig : i = .linit l → k.SameConfig k'
  data : ∀ j, (k'.slot j).data = (k.slot j).data

section
variable {s u : State} {i : Instr} {l m : LinkNo} {k k' : Link} {f : State → State}

theorem Link.ConfiguredBy.refl (i : Instr) (l : LinkNo) (k : Link) : k.ConfiguredBy i l k :=
  ⟨rfl, rfl, rfl, rfl, fun _ => ⟨⟨rfl, rfl, rfl, rfl⟩, rfl, rfl, rfl, rfl, rfl, rfl⟩, fun _ => k.sameConfig_refl,
    fun _ => rfl⟩

/-- A write of a register. -/
theorem Link.ConfiguredBy.of_sameState (hi : i ≠ .linit l) (h : k.SameReceive k' ∧ k.SameTransmit k') :
    k.ConfiguredBy i l k' := by
  have ⟨⟨_, _, _, hslots⟩, htxo, _, _, harm, hring, hwire⟩ := h
  exact ⟨hwire, hring, htxo, harm, fun _ => h, fun hlinit => absurd hlinit hi,
    fun j => congrArg Slot.data (Link.slot_congr hslots j)⟩

/-- LINIT empties the slots but keeps their bytes (R29). -/
theorem Link.ConfiguredBy.reinit (l : LinkNo) (k : Link) : k.ConfiguredBy (.linit l) l k.reinit :=
  ⟨rfl, rfl, rfl, rfl, fun h => absurd rfl h, fun _ => k.sameConfig_refl,
    fun j => (congrArg Slot.data (k.slot_reinit j)).trans (Slot.emptied_data _)⟩

variable (hi : (∃ r v, i = .cfgl l r v) ∨ (∃ r v, i = .cfgh l r v) ∨ i = .linit l)
include hi

/-- CFGL, CFGH and LINIT write no link but their own, and nothing besides. -/
theorem LinkWrite.configuredBy (h : LinkWrite s (some i) m k f) :
    m = l ∧ f = id ∧ (s.link m).ConfiguredBy i l k := by
  cases h with
  | receive h => cases h <;> simp at hi
  | transmit h => cases h <;> simp at hi
  | configLow m r v =>
    obtain rfl : m = l := by simpa using hi
    exact ⟨rfl, rfl, .of_sameState Instr.noConfusion ((s.link m).writeLow_same r v)⟩
  | configHigh m r v =>
    obtain rfl : m = l := by simpa using hi
    exact ⟨rfl, rfl, .of_sameState Instr.noConfusion ((s.link m).writeHigh_same r v)⟩
  | reinit m =>
    obtain rfl : m = l := by simpa using hi
    exact ⟨rfl, rfl, .reinit m _⟩

/-- CFGL, CFGH and LINIT write their link, or at most the latch. -/
theorem Effect.config_cases (he : Effect s (some i) u) :
    (∃ b c w, u = { s with faultValid := b, faultCode := c, faultCmd := w }) ∨
    ∃ k, u = s.setLink l k ∧ (s.link l).ConfiguredBy i l k := by
  cases he with
  | nothing => exact .inl ⟨_, _, _, rfl⟩
  | latched => exact .inl ⟨_, _, _, rfl⟩
  | write hw =>
    obtain ⟨rfl, rfl, hk⟩ := hw.configuredBy hi
    exact .inr ⟨_, rfl, hk⟩
  | badFcs | badSize | reclaimed => simp at hi

theorem Effect.configuredBy (he : Effect s (some i) u) : (s.link l).ConfiguredBy i l (u.link l) := by
  rcases he.config_cases hi with ⟨b, c, w, rfl⟩ | ⟨k, rfl, hk⟩
  · exact .refl i l _
  · rcases s.link_setLink_cases l k with hl | hl
    · exact hl.symm ▸ hk
    · exact hl.symm ▸ .refl i l _

theorem Effect.config_frame (he : Effect s (some i) u) :
    s.SameOtherLinks l u ∧ s.SameRxQueue u ∧ s.SameTxQueue u ∧ s.SameVerdicts u ∧ s.SameModel u := by
  rcases he.config_cases hi with ⟨b, c, w, rfl⟩ | ⟨k, rfl, -⟩
  · exact ⟨fun _ _ => rfl, ⟨rfl, rfl⟩, ⟨rfl, rfl⟩, ⟨rfl, rfl⟩, rfl, rfl, rfl, rfl⟩
  · exact ⟨fun _ hm => State.link_setLink_other s k hm, ⟨rfl, rfl⟩, ⟨rfl, rfl⟩, ⟨rfl, rfl⟩, rfl, rfl, rfl, rfl⟩

end

/-- Settles O58: the one write among the effects of CFGL, CFGH and LINIT is that of a register of their link, or of its
receive and transmit state but the bytes of its slots. -/
theorem configCommandFrame : Obligations.ConfigCommandFrame := by
  intro s t l i hi h
  obtain ⟨u, r, he, rfl⟩ := exec_effect_response h
  obtain ⟨hother, hrx, htx, hverdicts, hmodel⟩ := he.config_frame hi
  obtain ⟨hwire, hring, htxo, harm, hstate, hconfig, hdata⟩ := he.configuredBy hi
  refine ⟨hother, hrx, htx, hverdicts, hmodel, hwire, hring, htxo, harm, hstate, hconfig, fun m j n => ?_⟩
  by_cases hm : m = l
  · exact hm ▸ congrArg (Memory.read · n) (hdata j)
  · exact congrArg (fun k : Link => (k.slot j).data.read n) (hother m hm)

end Sys2Proof.Machine

namespace Sys2Proof.Machine

/-! ### Every command is one atomic step over its body (`20_memory.md` R68) -/

/-- The body of each command. -/
def commandBody (s : State) : Instr → Result
  | .nop => .done s
  | .rxb l b => rxbBody l b s
  | .txs l => txsBody l s
  | .txd l b => txdBody l b s
  | .txe l => txeBody l s
  | .rxqp => rxqpBody s
  | .slrd l j n => slrdBody l j n s
  | .fchk l j => fchkBody l j s
  | .slrl l j => slrlBody l j s
  | .txqp => txqpBody s
  | .cfgl l r v => cfgWriteCheck r (s.onLink l fun k => .done (s.setLink l (k.writeLow r v)))
  | .cfgh l r v => cfgWriteCheck r (s.onLink l fun k => .done (s.setLink l (k.writeHigh r v)))
  | .cfgr l r => cfgReadCheck r (s.onLink l fun k => .reply s (k.readReg r))
  | .strd r => strdCheck r (.reply s (s.readStatus r))
  | .linit l => linitBody l s

theorem exec_eq_commandBody (i : Instr) (s : State) : exec i s = s.command i (commandBody s i) := by
  cases i <;> rfl

/-! ### The fault a body raises is the first of the list (`60_exceptions.md` R271, R272) -/

/-- The same fault latch (R50). -/
def State.SameLatch (s t : State) : Prop :=
  t.faultValid = s.faultValid ∧ t.faultCode = s.faultCode ∧ t.faultCmd = s.faultCmd

/-- How a body over `s` ends: it raises the code `o`, or completes with the latch untouched where `o` is none. -/
def Result.EndsAs (s : State) (o : Option FaultCode) : Result → Prop
  | .done t => o = none ∧ s.SameLatch t
  | .reply t _ => o = none ∧ s.SameLatch t
  | .raise c => o = some c
  | .stop _ => False

section
variable {s : State} {o : Option FaultCode} {body : Result}

theorem Result.EndsAs.eq_raise {c : FaultCode} (h : body.EndsAs s (some c)) : body = .raise c := by
  cases body with
  | raise c' => rw [Option.some.inj h]
  | done t | reply t v => exact absurd h.1 (Option.some_ne_none c)
  | stop r => exact absurd h id

theorem State.command_completes {i : Instr} (hs : s.Running) (h : body.EndsAs s none) :
    ∃ t, s.command i body = .next t ∧ s.SameLatch t := by
  rw [State.command_running hs]
  cases body with
  | done t => exact ⟨t.noReply, rfl, h.2⟩
  | reply t v => exact ⟨t.respond v, rfl, h.2⟩
  | raise c => exact absurd h.symm (Option.some_ne_none c)
  | stop r => exact absurd h id

/-- A check raises its code where it applies, and leaves the end to the rest of the body elsewhere. -/
theorem Result.endsAs_check {P Q : Prop} [Decidable P] [Decidable Q] {c : FaultCode} (hPQ : P ↔ Q)
    (h : ¬ P → body.EndsAs s o) : (if P then .raise c else body).EndsAs s (if Q then some c else o) := by
  by_cases hP : P
  · rw [if_pos hP, if_pos (hPQ.mp hP)]
    exact rfl
  · rw [if_neg hP, if_neg (hPQ.not.mp hP)]
    exact h hP

theorem cfgWriteCheck_endsAs {r : RegSel} (h : body.EndsAs s o) : (cfgWriteCheck r body).EndsAs s
    (if (cfgSelExists r && cfgSelWritable r) = false then some .illegalCommand else o) := by
  rw [cfgWriteCheck_eq, cfgSel_writable]
  by_cases hr : r.toNat < 5
  · rw [if_pos hr, if_neg (by simpa using hr)]
    exact h
  · rw [if_neg hr, if_pos (by simpa using hr)]
    exact rfl

theorem cfgReadCheck_endsAs {r : RegSel} (h : body.EndsAs s o) :
    (cfgReadCheck r body).EndsAs s (if cfgSelExists r = false then some .illegalCommand else o) :=
  Result.endsAs_check (by simp [cfgSelExists]) fun _ => h

theorem strdCheck_endsAs {r : RegSel} (h : body.EndsAs s o) :
    (strdCheck r body).EndsAs s (if strdSelExists r = false then some .illegalCommand else o) :=
  Result.endsAs_check (by simp [strdSelExists]) fun _ => h

variable {l : LinkNo}

theorem State.onLink_endsAs {body : Link → Result} (h : l.toNat < s.params.nLinks → (body (s.link l)).EndsAs s o) :
    (s.onLink l body).EndsAs s (if s.params.nLinks ≤ l.toNat then some .badLink else o) :=
  Result.endsAs_check Iff.rfl fun hl => h (Nat.not_le.mp hl)

theorem State.onHeldSlot_endsAs {j : SlotNo} {body : Link → Slot → Result}
    (h : l.toNat < s.params.nLinks → j.toNat < s.params.nSlots →
      (body (s.link l) ((s.link l).slot j)).EndsAs s o) :
    (s.onHeldSlot l j body).EndsAs s
      (if s.params.nLinks ≤ l.toNat then some .badLink else if s.params.nSlots ≤ j.toNat then some .badSlot
        else if ((s.link l).slot j).own ≠ .held then some .slotNotOwned else o) :=
  State.onLink_endsAs fun hl => Result.endsAs_check Iff.rfl fun hj =>
    Result.endsAs_check Iff.rfl fun _ => h hl (Nat.not_le.mp hj)

theorem State.acceptData_endsAs (k : Link) (d : Byte) :
    (s.acceptData l k d).EndsAs s (if (k.slot k.act).own ≠ .prod then some .rxSlotBusy else none) :=
  Result.endsAs_check Iff.rfl fun _ => ⟨rfl, rfl, rfl, rfl⟩

theorem State.completeFrame_sameLatch (k : Link) : s.SameLatch (s.completeFrame l k) := by
  unfold State.completeFrame
  split <;> exact ⟨rfl, rfl, rfl⟩

theorem Link.emit_eq_none_iff {k : Link} {cap : Nat} {seq : List Byte} :
    k.emit cap seq = none ↔ k.txm = true ∧ cap < k.ring.length + seq.length := by
  unfold Link.emit
  split_ifs <;> simp_all

/-- Only a buffered emit can overrun the ring (R171). -/
theorem State.emitThen_endsAs (k : Link) (seq : List Byte) (f : Link → Link) :
    (s.emitThen l k seq f).EndsAs s
      (if (k.txm && decide (s.params.txRingCap < k.ring.length + seq.length)) = true then some .txRingOverrun
        else none) := by
  cases hemit : k.emit s.params.txRingCap seq with
  | none =>
    rw [State.emitThen_none hemit, if_pos (by simpa using Link.emit_eq_none_iff.mp hemit)]
    exact rfl
  | some k' =>
    rw [State.emitThen_some hemit, if_neg (by simpa using Link.emit_eq_none_iff.not.mp (by simp [hemit]))]
    exact ⟨rfl, rfl, rfl, rfl⟩

theorem State.fcsVerdict_endsAs (f : Half) : (s.fcsVerdict f).EndsAs s none := by
  unfold State.fcsVerdict
  split <;> exact ⟨rfl, rfl, rfl, rfl⟩

/-! ### The checks of R272, command by command -/

theorem faultOf_link {i : Instr} (hl : linkOperand i = some l) (hslot : slotOperand i = none) :
    faultOf i s = if i.wf = false then some .illegalCommand
      else if s.params.nLinks ≤ l.toNat then some .badLink else stateFault s i := by
  simp [faultOf, hl, hslot]

theorem faultOf_linkSlot {i : Instr} {j : SlotNo} (hwf : i.wf = true) (hl : linkOperand i = some l)
    (hslot : slotOperand i = some j) :
    faultOf i s = if s.params.nLinks ≤ l.toNat then some .badLink
      else if s.params.nSlots ≤ j.toNat then some .badSlot else stateFault s i := by
  simp [faultOf, hwf, hl, hslot]

theorem faultOf_alone {i : Instr} (hl : linkOperand i = none) (hslot : slotOperand i = none) :
    faultOf i s = if i.wf = false then some .illegalCommand else stateFault s i := by
  simp [faultOf, hl, hslot]

/-- The bytes that R143's check concerns are those of two classes (R115). -/
theorem isData_iff_classify (esc : Bool) (cnt : Half) (b : Byte) (accm : Word) :
    (esc || (b != 0x7D && b != 0x7E && !(decide (b.toNat < 0x20) && accm.getLsbD b.toNat))) = true ↔
      classify esc cnt b accm = .escaped ∨ classify esc cnt b accm = .data := by
  cases esc with
  | true => simp [classify_escaped]
  | false =>
    by_cases hmarker : b = escByte
    · subst hmarker
      rw [classify_escByte]
      simp [escByte]
    by_cases hflag : b = flagByte
    · subst hflag
      by_cases hcnt : cnt = 0
      · subst hcnt
        rw [classify_flagByte_empty]
        simp [flagByte]
      · rw [classify_flagByte_frameEnd hcnt]
        simp [flagByte]
    have hne7D : b ≠ 125#8 := hmarker
    have hne7E : b ≠ 126#8 := hflag
    have hmap : (decide (b.toNat < 0x20) && accm.getLsbD b.toNat) = rxDrop b accm := rfl
    rw [hmap]
    rcases Bool.eq_false_or_eq_true (rxDrop b accm) with hdrop | hdrop
    · rw [classify_dropped cnt hflag hmarker hdrop, hdrop]
      simp
    · rw [classify_plain cnt hflag hmarker hdrop, hdrop]
      simp [hne7D, hne7E]

theorem stateFault_rxb (b : Byte) : stateFault s (.rxb l b) =
    if classify (s.link l).esc (s.link l).cnt b (s.link l).accmRx = .escaped ∨
        classify (s.link l).esc (s.link l).cnt b (s.link l).accmRx = .data then
      if ((s.link l).slot (s.link l).act).own ≠ .prod then some .rxSlotBusy else none
    else none := by
  simp only [stateFault, ← isData_iff_classify, Bool.and_eq_true, decide_eq_true_eq, ite_and]

theorem rxbBody_endsAs (b : Byte) : (rxbBody l b s).EndsAs s (faultOf (.rxb l b) s) := by
  rw [faultOf_link rfl rfl, stateFault_rxb]
  refine State.onLink_endsAs fun _ => ?_
  cases classify (s.link l).esc (s.link l).cnt b (s.link l).accmRx with
  | escaped =>
    rw [if_pos (.inl rfl)]
    exact State.acceptData_endsAs { s.link l with esc := false } (unescape b)
  | data =>
    rw [if_pos (.inr rfl)]
    exact State.acceptData_endsAs (s.link l) b
  | escape | empty | dropped => exact ⟨if_neg (by simp), rfl, rfl, rfl⟩
  | frameEnd => exact ⟨if_neg (by simp), State.completeFrame_sameLatch _⟩

/-- The flag that opens a frame fits, since the ring of an idle link is empty (R172). -/
theorem txsBody_endsAs (hs : s.Inv) : (txsBody l s).EndsAs s (faultOf (.txs l) s) := by
  rw [faultOf_link rfl rfl]
  refine State.onLink_endsAs fun hl => Result.endsAs_check (by simp) fun hidle => ?_
  obtain ⟨htxo, harm⟩ := not_or.mp hidle
  obtain ⟨-, -, hring, -⟩ := hs.transmit _ (State.link_mem hs.shape hl)
  have hempty : (s.link l).ring = [] := hring (Bool.eq_false_iff.mpr htxo) (Bool.eq_false_iff.mpr harm)
  obtain ⟨-, -, -, -, -, hcap, -⟩ := hs.shape.1
  have hends := State.emitThen_endsAs (s := s) (l := l) { s.link l with txm := (s.link l).txMode, fcs := fcsSeed }
    [flagByte] fun k' => { k' with txo := true }
  rwa [if_neg (by simp [hempty, Nat.ne_zero_of_lt hcap])] at hends

theorem txdBody_endsAs (b : Byte) : (txdBody l b s).EndsAs s (faultOf (.txd l b) s) := by
  rw [faultOf_link rfl rfl]
  exact State.onLink_endsAs fun _ => Result.endsAs_check (by simp) fun _ => State.emitThen_endsAs _ _ _

theorem txeBody_endsAs : (txeBody l s).EndsAs s (faultOf (.txe l) s) := by
  rw [faultOf_link rfl rfl]
  exact State.onLink_endsAs fun _ => Result.endsAs_check (by simp) fun _ => State.emitThen_endsAs _ _ _

theorem rxqpBody_endsAs : (rxqpBody s).EndsAs s (faultOf .rxqp s) := by
  rw [show faultOf .rxqp s = none from faultOf_alone rfl rfl]
  unfold rxqpBody
  split <;> exact ⟨rfl, rfl, rfl, rfl⟩

/-- What `fill` counts is written, so a byte below it is read (R29, R206). -/
theorem slrdBody_endsAs (hs : s.Inv) (j : SlotNo) (n : Half) :
    (slrdBody l j n s).EndsAs s (faultOf (.slrd l j n) s) := by
  rw [faultOf_linkSlot rfl rfl rfl]
  refine State.onHeldSlot_endsAs fun hl hj => Result.endsAs_check Iff.rfl fun hn => ?_
  obtain ⟨b, hb⟩ := Option.ne_none_iff_exists'.mp (hs.read_ne_none hl hj (Nat.not_le.mp hn))
  rw [hb]
  exact ⟨rfl, rfl, rfl, rfl⟩

/-- A frame that passes the size test is stored whole, so FCHK reads every byte of it (R29, R210). -/
theorem fchkBody_endsAs (hs : s.Inv) (j : SlotNo) : (fchkBody l j s).EndsAs s (faultOf (.fchk l j) s) := by
  rw [faultOf_linkSlot rfl rfl rfl]
  refine State.onHeldSlot_endsAs fun hl hj => ?_
  split
  · exact ⟨rfl, rfl, rfl, rfl⟩
  · next hsize =>
    have hfill := Nat.not_lt.mp (not_or.mp hsize).2
    obtain ⟨d, hd⟩ := Memory.bytes_isSome fun n hn => hs.read_ne_none hl hj (Nat.lt_of_lt_of_le hn hfill)
    rw [hd]
    exact State.fcsVerdict_endsAs _

theorem slrlBody_endsAs (j : SlotNo) : (slrlBody l j s).EndsAs s (faultOf (.slrl l j) s) := by
  rw [faultOf_linkSlot rfl rfl rfl]
  exact State.onHeldSlot_endsAs fun _ _ => ⟨rfl, rfl, rfl, rfl⟩

theorem txqpBody_endsAs : (txqpBody s).EndsAs s (faultOf .txqp s) := by
  rw [show faultOf .txqp s = none from faultOf_alone rfl rfl]
  unfold txqpBody
  split <;> exact ⟨rfl, rfl, rfl, rfl⟩

theorem linitBody_endsAs : (linitBody l s).EndsAs s (faultOf (.linit l) s) := by
  rw [faultOf_link rfl rfl]
  exact State.onLink_endsAs fun _ => Result.endsAs_check Iff.rfl fun _ => ⟨rfl, rfl, rfl, rfl⟩

theorem commandBody_endsAs (hs : s.Inv) (i : Instr) : (commandBody s i).EndsAs s (faultOf i s) := by
  cases i with
  | nop => exact ⟨faultOf_alone rfl rfl, rfl, rfl, rfl⟩
  | rxb l b => exact rxbBody_endsAs b
  | txs l => exact txsBody_endsAs hs
  | txd l b => exact txdBody_endsAs b
  | txe l => exact txeBody_endsAs
  | rxqp => exact rxqpBody_endsAs
  | slrd l j n => exact slrdBody_endsAs hs j n
  | fchk l j => exact fchkBody_endsAs hs j
  | slrl l j => exact slrlBody_endsAs j
  | txqp => exact txqpBody_endsAs
  | cfgl l r v | cfgh l r v =>
    rw [faultOf_link rfl rfl]
    exact cfgWriteCheck_endsAs (State.onLink_endsAs fun _ => ⟨rfl, rfl, rfl, rfl⟩)
  | cfgr l r =>
    rw [faultOf_link rfl rfl]
    exact cfgReadCheck_endsAs (State.onLink_endsAs fun _ => ⟨rfl, rfl, rfl, rfl⟩)
  | strd r =>
    rw [faultOf_alone rfl rfl]
    exact strdCheck_endsAs ⟨rfl, rfl, rfl, rfl⟩
  | linit l => exact linitBody_endsAs

theorem exec_faults {i : Instr} {c : FaultCode} (hinv : s.Inv) (hs : s.Running) (h : faultOf i s = some c) :
    exec i s = .next (s.takeFault c (encode i)) := by
  rw [exec_eq_commandBody]
  exact State.command_raise hs (h ▸ commandBody_endsAs hinv i).eq_raise

theorem exec_completes {i : Instr} (hinv : s.Inv) (hs : s.Running) (h : faultOf i s = none) :
    ∃ t, exec i s = .next t ∧ s.SameLatch t := by
  rw [exec_eq_commandBody]
  exact State.command_completes hs (h ▸ commandBody_endsAs hinv i)

end

/-- Settles O8: a body ends as R272's list says, and a body that completes leaves the clear latch as it is. -/
theorem commandsFaultExactlyAsListed : Obligations.CommandsFaultExactlyAsListed := by
  refine ⟨fun w s e hs hw => State.meetWord_illegal hw hs, fun i s hinv hs => ?_⟩
  rw [State.meetWord_ok (decode_encode i)]
  refine ⟨fun c hc => exec_faults hinv hs hc, fun hnone => ?_⟩
  obtain ⟨t, ht, hvalid, hcode, hcmd⟩ := exec_completes hinv hs hnone
  obtain ⟨hclear, -⟩ := hinv.latch
  obtain ⟨hcode', hcmd'⟩ := hclear hs
  exact ⟨t, ht, hvalid.trans hs, hcode.trans hcode', hcmd.trans hcmd'⟩

/-- Settles O9, by the table of the codes. -/
theorem faultCodesNumbered : Obligations.FaultCodesNumbered :=
  fun _ _ => ⟨rfl, rfl, rfl, rfl, rfl, rfl, rfl, rfl, rfl, rfl⟩

/-! ### The halted block (`60_exceptions.md` R270) -/

section
variable {s : State} (halted : s.faultValid = true)
include halted

theorem exec_halted (i : Instr) : exec i s = .next s.noReply := by
  rw [exec_eq_commandBody, State.command_halted halted]

theorem State.meetWord_ignored (w : Word) : s.meetWord w = .next s.noReply := by
  cases hw : decode w with
  | ok i => rw [State.meetWord_ok hw, exec_halted halted]
  | error e => exact State.meetWord_halted hw halted

theorem State.drainEnabled_halted (l : LinkNo) : s.drainEnabled l = false := by
  simp [State.drainEnabled, halted]

theorem State.idle_halted : s.idle = s.noReply := by
  rcases s.idle_cases with ⟨-, hidle⟩ | ⟨l, -, hen, -⟩
  · exact hidle
  · rw [State.drainEnabled_halted halted] at hen
    cases hen

/-- The halted block only takes the head of the schedule and notes its issuer, until reset. -/
theorem step_halted (hreset : ∀ rest, s.pending ≠ .reset :: rest) :
    ∃ a, step s = .next (s.accept a s.pending.tail).noReply := by
  match hp : s.pending with
  | [] => exact ⟨s.issuer, by rw [step_idle hp, State.idle_halted halted, List.tail_nil, ← hp]; rfl⟩
  | .command a w :: rest =>
    exact ⟨a, (step_command hp).trans (State.meetWord_ignored (s := s.accept a rest) halted w)⟩
  | .drain l :: rest =>
    have hen : (s.setPending rest).drainEnabled l = false :=
      State.drainEnabled_halted (s := s.setPending rest) halted l
    exact ⟨s.issuer, by rw [step_drain hp, State.drainEvent_disabled hen]; rfl⟩
  | .reset :: rest => exact absurd hp (hreset rest)

end

/-- Settles O7: a command's first fault is taken with nothing else written, and the halted block takes only the head
of its schedule. -/
theorem raisedFaultHaltsBlock : Obligations.RaisedFaultHaltsBlock := by
  refine ⟨fun i s c hinv hs hc => exec_faults hinv hs hc, fun w s e hs hw => State.meetWord_illegal hw hs,
    fun s halted => ⟨exec_halted halted, State.meetWord_ignored halted, State.drainEnabled_halted halted⟩,
    fun s t halted hstep hreset => ?_⟩
  obtain ⟨a, ha⟩ := step_halted halted hreset
  rw [ha] at hstep
  injection hstep with ht
  subst ht
  exact ⟨rfl, rfl, rfl, rfl⟩

end Sys2Proof.Machine

namespace Sys2Proof.Machine

/-! ### Changes that a command does not see (`60_exceptions.md` R278, R281) -/

/-- The change `f` leaves alone what a command on link `l` reads, and commutes with what it writes. -/
structure UnseenOn (l : LinkNo) (f : State → State) : Prop where
  params (s : State) : (f s).params = s.params
  link (s : State) : (f s).link l = s.link l
  rxq (s : State) : (f s).rxq = s.rxq
  faultValid (s : State) : (f s).faultValid = s.faultValid
  setLink (s : State) (k : Link) : (f s).setLink l k = f (s.setLink l k)
  pushRxq (s : State) (d : Descriptor) : (f s).pushRxq d = f (s.pushRxq d)
  bumpRxqDrop (s : State) : (f s).bumpRxqDrop = f s.bumpRxqDrop
  bumpFcsErr (s : State) : (f s).bumpFcsErr = f s.bumpFcsErr
  bumpMruErr (s : State) : (f s).bumpMruErr = f s.bumpMruErr
  noReply (s : State) : (f s).noReply = f s.noReply
  respond (s : State) (v : Word) : (f s).respond v = f (s.respond v)
  takeFault (s : State) (c : FaultCode) (w : Word) : (f s).takeFault c w = f (s.takeFault c w)

/-- The contents of another link. -/
theorem unseenOn_setLink {l m : LinkNo} (hm : m ≠ l) (k : Link) : UnseenOn l fun s => s.setLink m k where
  params _ := rfl
  link s := State.link_setLink_other s k hm.symm
  rxq _ := rfl
  faultValid _ := rfl
  setLink s k' := State.setLink_comm s k k' hm
  pushRxq _ _ := rfl
  bumpRxqDrop _ := rfl
  bumpFcsErr _ := rfl
  bumpMruErr _ := rfl
  noReply _ := rfl
  respond _ _ := rfl
  takeFault _ _ _ := rfl

/-- The issuer, of the command and of the response. -/
theorem unseenOn_issuedBy (l : LinkNo) (a : Agent) : UnseenOn l (State.issuedBy a) where
  params _ := rfl
  link _ := rfl
  rxq _ := rfl
  faultValid _ := rfl
  setLink _ _ := rfl
  pushRxq _ _ := rfl
  bumpRxqDrop _ := rfl
  bumpFcsErr _ := rfl
  bumpMruErr _ := rfl
  noReply _ := rfl
  respond _ _ := rfl
  takeFault _ _ _ := rfl

section
variable {f : State → State} {l : LinkNo} (hf : UnseenOn l f) {s : State}
include hf

/-- A command takes an unseen change to the end if its body does. -/
theorem UnseenOn.command {i : Instr} {body body' : Result} (h : body' = body.mapState f) :
    (f s).command i body' = mapNext f (s.command i body) := by
  subst h
  rcases Bool.eq_false_or_eq_true s.faultValid with hv | hv
  · rw [State.command_halted hv, State.command_halted ((hf.faultValid s).trans hv), hf.noReply]
    rfl
  · rw [State.command_running hv, State.command_running ((hf.faultValid s).trans hv)]
    cases body with
    | done t => exact congrArg _ (hf.noReply t)
    | reply t v => exact congrArg _ (hf.respond t v)
    | raise c => exact congrArg _ (hf.takeFault s c (encode i))
    | stop r => rfl

theorem UnseenOn.done_setLink (k : Link) :
    Result.done ((f s).setLink l k) = (Result.done (s.setLink l k)).mapState f :=
  congrArg _ (hf.setLink s k)

theorem UnseenOn.onLink {body body' : Link → Result} (h : body' (s.link l) = (body (s.link l)).mapState f) :
    (f s).onLink l body' = (s.onLink l body).mapState f := by
  rw [State.onLink, hf.params, hf.link]
  exact Result.mapState_check _ h

theorem UnseenOn.onHeldSlot {j : SlotNo} {body body' : Link → Slot → Result}
    (h : body' (s.link l) ((s.link l).slot j) = (body (s.link l) ((s.link l).slot j)).mapState f) :
    (f s).onHeldSlot l j body' = (s.onHeldSlot l j body).mapState f := by
  refine hf.onLink ?_
  rw [hf.params]
  exact Result.mapState_check _ (Result.mapState_check _ h)

theorem UnseenOn.acceptData (k : Link) (d : Byte) : (f s).acceptData l k d = (s.acceptData l k d).mapState f := by
  rw [State.acceptData, hf.params]
  exact Result.mapState_check _ (hf.done_setLink _)

theorem UnseenOn.completeFrame (k : Link) : (f s).completeFrame l k = f (s.completeFrame l k) := by
  rw [State.completeFrame, State.completeFrame, hf.params, hf.rxq, hf.setLink, hf.setLink, hf.pushRxq, hf.bumpRxqDrop,
    apply_ite f]

theorem UnseenOn.emitThen (k : Link) (seq : List Byte) (g : Link → Link) :
    (f s).emitThen l k seq g = (s.emitThen l k seq g).mapState f := by
  rw [State.emitThen, State.emitThen, hf.params]
  cases k.emit s.params.txRingCap seq with
  | none => rfl
  | some k' => exact hf.done_setLink (g k')

theorem UnseenOn.rxbBody (b : Byte) : rxbBody l b (f s) = (rxbBody l b s).mapState f := by
  refine hf.onLink ?_
  cases classify (s.link l).esc (s.link l).cnt b (s.link l).accmRx with
  | escaped => exact hf.acceptData _ _
  | escape => exact hf.done_setLink _
  | frameEnd => exact congrArg _ (hf.completeFrame (s.link l))
  | empty | dropped => rfl
  | data => exact hf.acceptData _ _

theorem UnseenOn.txsBody : txsBody l (f s) = (txsBody l s).mapState f :=
  hf.onLink (Result.mapState_check _ (hf.emitThen _ _ _))

theorem UnseenOn.txdBody (b : Byte) : txdBody l b (f s) = (txdBody l b s).mapState f :=
  hf.onLink (Result.mapState_check _ (hf.emitThen _ _ _))

theorem UnseenOn.txeBody : txeBody l (f s) = (txeBody l s).mapState f :=
  hf.onLink (Result.mapState_check _ (hf.emitThen _ _ _))

theorem UnseenOn.slrdBody (j : SlotNo) (n : Half) : slrdBody l j n (f s) = (slrdBody l j n s).mapState f := by
  refine hf.onHeldSlot (Result.mapState_check _ ?_)
  cases ((s.link l).slot j).data.read n.toNat <;> rfl

theorem UnseenOn.fcsVerdict (v : Half) : (f s).fcsVerdict v = (s.fcsVerdict v).mapState f := by
  rw [State.fcsVerdict, State.fcsVerdict, hf.bumpFcsErr, apply_ite (Result.mapState f)]
  rfl

theorem UnseenOn.fchkBody (j : SlotNo) : fchkBody l j (f s) = (fchkBody l j s).mapState f := by
  refine hf.onHeldSlot ?_
  rw [hf.bumpMruErr, apply_ite (Result.mapState f)]
  cases ((s.link l).slot j).data.bytes ((s.link l).slot j).len.toNat with
  | none => rfl
  | some d => exact congrArg _ (hf.fcsVerdict _)

theorem UnseenOn.slrlBody (j : SlotNo) : slrlBody l j (f s) = (slrlBody l j s).mapState f := by
  refine hf.onHeldSlot ?_
  rw [State.setSlot, hf.link]
  exact hf.done_setLink _

theorem UnseenOn.linitBody : linitBody l (f s) = (linitBody l s).mapState f :=
  hf.onLink (Result.mapState_check _ (hf.done_setLink _))

/-- What a command on link `l` does not see, its body takes to the end. -/
theorem UnseenOn.commandBody {i : Instr} (hi : linkOperand i = some l) :
    commandBody (f s) i = (commandBody s i).mapState f := by
  cases i with
  | nop | rxqp | txqp | strd r => cases hi
  | rxb m b => cases hi; exact hf.rxbBody b
  | txs m => cases hi; exact hf.txsBody
  | txd m b => cases hi; exact hf.txdBody b
  | txe m => cases hi; exact hf.txeBody
  | slrd m j n => cases hi; exact hf.slrdBody j n
  | fchk m j => cases hi; exact hf.fchkBody j
  | slrl m j => cases hi; exact hf.slrlBody j
  | cfgl m r v | cfgh m r v =>
    cases hi
    exact Result.mapState_check _ (Result.mapState_check _ (hf.onLink (hf.done_setLink _)))
  | cfgr m r => cases hi; exact Result.mapState_check _ (hf.onLink rfl)
  | linit m => cases hi; exact hf.linitBody

end

/-- Settles O19: the contents of another link are a change that the command does not see. -/
theorem otherLinksAreNeitherReadNorWritten : Obligations.OtherLinksAreNeitherReadNorWritten := by
  intro i s l m k hi hm
  have hf := unseenOn_setLink hm k
  rw [exec_eq_commandBody, exec_eq_commandBody]
  exact hf.command (hf.commandBody hi)

/-- A command that names no link does not see its issuer either. -/
theorem commandBody_issuedBy {i : Instr} (hi : linkOperand i = none) (s : State) (a : Agent) :
    commandBody (s.issuedBy a) i = (commandBody s i).mapState (State.issuedBy a) := by
  cases i with
  | nop => rfl
  | rxqp =>
    show rxqpBody (s.issuedBy a) = (rxqpBody s).mapState _
    have hrxq : (s.issuedBy a).rxq = s.rxq := rfl
    rw [rxqpBody, rxqpBody, hrxq]
    cases s.rxq <;> rfl
  | txqp =>
    show txqpBody (s.issuedBy a) = (txqpBody s).mapState _
    have htxq : (s.issuedBy a).txq = s.txq := rfl
    rw [txqpBody, txqpBody, htxq]
    cases s.txq <;> rfl
  | strd r => exact Result.mapState_check _ rfl
  | _ => cases hi

/-- Settles O21: the issuer is a change that no command sees, whether or not it names a link. -/
theorem issuerIsNotChecked : Obligations.IssuerIsNotChecked := by
  intro i s a
  rw [exec_eq_commandBody, exec_eq_commandBody]
  cases hi : linkOperand i with
  | none => exact (unseenOn_issuedBy 0 a).command (commandBody_issuedBy hi s a)
  | some l => exact (unseenOn_issuedBy l a).command ((unseenOn_issuedBy l a).commandBody hi)

end Sys2Proof.Machine

namespace Sys2Proof.Machine

/-! ### The error counters (`10_state.md` R48) -/

/-- Each of the four counters is the same or one higher, modulo 2^32. -/
def State.CountsUp (s t : State) : Prop :=
  (t.rxqDrop = s.rxqDrop ∨ t.rxqDrop = s.rxqDrop + 1) ∧ (t.txqDrop = s.txqDrop ∨ t.txqDrop = s.txqDrop + 1) ∧
  (t.fcsErr = s.fcsErr ∨ t.fcsErr = s.fcsErr + 1) ∧ (t.mruErr = s.mruErr ∨ t.mruErr = s.mruErr + 1)

theorem State.CountsUp.refl (s : State) : s.CountsUp s := ⟨.inl rfl, .inl rfl, .inl rfl, .inl rfl⟩

theorem State.countsUp_completeDrain (s : State) (l : LinkNo) : s.CountsUp (s.completeDrain l) := by
  by_cases hroom : s.txq.length < s.params.txqCap
  · rw [State.completeDrain_room hroom]
    exact .refl s
  · rw [State.completeDrain_full (Nat.not_lt.mp hroom)]
    exact ⟨.inl rfl, .inr rfl, .inl rfl, .inl rfl⟩

/-- What a write does besides the link itself counts at most one dropped frame or one dropped completion. -/
theorem LinkWrite.countsUp {s : State} {i : Option Instr} {l : LinkNo} {k : Link} {f : State → State}
    (h : LinkWrite s i l k f) (t : State) : t.CountsUp (f t) := by
  cases h with
  | receive h =>
    cases h with
    | dropped => exact ⟨.inr rfl, .inl rfl, .inl rfl, .inl rfl⟩
    | _ => exact .refl t
  | transmit h =>
    cases h with
    | drainedLast l => exact t.countsUp_completeDrain l
    | _ => exact .refl t
  | _ => exact .refl t

theorem Effect.countsUp {s u : State} {i : Option Instr} (he : Effect s i u) : s.CountsUp u := by
  cases he with
  | badFcs => exact ⟨.inl rfl, .inl rfl, .inr rfl, .inl rfl⟩
  | badSize => exact ⟨.inl rfl, .inl rfl, .inl rfl, .inr rfl⟩
  | write hw => exact hw.countsUp (s.setLink _ _)
  | _ => exact .refl s

/-- Settles O10: the halted block writes nothing of its latch, and no effect of a step does more to a counter than to
add one. -/
theorem onlyResetClearsLatchAndCounters : Obligations.OnlyResetClearsLatchAndCounters := by
  intro s t hstep hreset
  refine ⟨fun halted => ?_, ?_⟩
  · obtain ⟨a, ha⟩ := step_halted halted hreset
    cases hstep.symm.trans ha
    exact ⟨halted, rfl, rfl⟩
  · rcases step_effect hstep with ⟨rest, hp, -⟩ | ⟨_, i, u, ⟨_, _, _, _, rfl⟩, he, ⟨_, _, _, _, rfl⟩⟩
    · exact absurd hp (hreset rest)
    · exact he.countsUp

/-! ### The state after reset (`70_reset_and_hazards.md` R300) -/

theorem Link.lstat_atReset (n : Nat) : (Link.atReset n).lstat = 0x00000000 := by
  simp [Link.lstat, Link.atReset, flagBit]

theorem Link.txocc_atReset (n : Nat) : (Link.atReset n).txocc = 0x00000000 := rfl

theorem State.resetWith_atReset (p : Params) : (State.resetWith p).AtReset := by
  refine ⟨List.length_replicate, fun k hk => ?_, rfl, rfl, rfl, rfl, rfl, rfl, rfl, rfl, rfl, rfl, rfl, rfl⟩
  obtain ⟨-, rfl⟩ := List.mem_replicate.mp hk
  refine ⟨rfl, rfl, rfl, List.length_replicate, fun v hv => ?_, rfl, rfl, rfl, rfl, rfl, rfl, rfl, rfl, rfl, rfl,
    Link.lstat_atReset _, Link.txocc_atReset _, rfl⟩
  obtain ⟨-, rfl⟩ := List.mem_replicate.mp hv
  exact ⟨rfl, rfl, rfl, fun _ => rfl⟩

/-- The reset input leaves the block as it is right after reset, whatever it was before. -/
theorem State.resetWith_sameHardware_applyReset (s : State) : (State.resetWith s.params).SameHardware s.applyReset :=
  ⟨_, _, _, _, rfl⟩

theorem State.SameHardware.atReset {s t : State} (h : s.SameHardware t) (hs : s.AtReset) : t.AtReset := by
  obtain ⟨_, _, _, _, rfl⟩ := h
  exact hs

/-- Settles O11: the reset input makes the block the reset state of its own parameters, which meets R300's table. -/
theorem resetSetsEveryField : Obligations.ResetSetsEveryField := by
  refine ⟨fun s rest hp => ⟨_, step_reset hp, ?_, rfl⟩, fun p => ⟨State.resetWith_atReset p, rfl⟩⟩
  exact (State.resetWith_sameHardware_applyReset _).atReset (State.resetWith_atReset _)

theorem State.applyReset_resetWith (p : Params) : (State.resetWith p).applyReset = State.resetWith p := rfl

theorem State.resetWith_inv {p : Params} (hp : p.Legal) : (State.resetWith p).Inv :=
  State.applyReset_resetWith p ▸ State.applyReset_inv (s := State.resetWith p) hp

/-- Settles O12: a reset of the reset state changes nothing, and the reset input establishes the invariant. -/
theorem resetSatisfiesInv : Obligations.ResetSatisfiesInv :=
  ⟨fun _ => State.resetWith_inv, State.resetWith_inv (p := Config.resetParams) (by decide)⟩

end Sys2Proof.Machine
